-- ==== Sys2Proof/Word.lean ====
section
/-! DEFINITION. The word types of the SeeLevel pulse-decode core (00_scope.md R5, R9).

Everything the spec treats as bits is a `BitVec` of the width the spec gives it: register fields, the
command word, port addresses and data, timestamps that wrap. Single pins and one-bit flags are `Bool`
(00_scope.md R12: 0 is `false`, 1 is `true`). -/

namespace Sys2Proof

/-- One frame or segment byte (10_state.md R47, R48). -/
abbrev Byte := BitVec 8

/-- One stored low-phase duration in microseconds, DUR_BITS = 16 (00_scope.md R5, 10_state.md R49). -/
abbrev Duration := BitVec 16

/-- One word of the register port, WORD_BITS = 32 (00_scope.md R5, 20_memory.md R105). -/
abbrev Word := BitVec 32

/-- A byte address in the register window: BUS_ADDR is 12 bits (10_state.md R69, 20_memory.md R100). -/
abbrev Addr := BitVec 12

/-- A value of the free-running microsecond counter, US_BITS = 32 (00_scope.md R5, 10_state.md R63). -/
abbrev Micros := BitVec 32

/-- The SENSOR field of a command word, SENSOR_BITS = 8: the 0-based sensor index (30_encoding.md R131). -/
abbrev Sensor := BitVec 8

/-- The OP field of a command word (30_encoding.md R130). -/
abbrev Opcode := BitVec 4

end Sys2Proof
end

