-- ==== Sys2Proof/Config.lean ====
section
/-! DEFINITION. The implementation parameters (00_scope.md R5), the input pins of one edge
(10_state.md R69), and the free values: what the spec leaves open.

The OPEN parameters are the fields of `Params`. A model takes them as arguments (R5): `State` carries a
`Params`, no step changes it, and the reset state carries `Config.openParams`, a constant WITHOUT a body,
so nothing can be proved of the value an implementation chooses (log entry 1). The other opaque
constants are the draws of 00_scope.md R6: the RX pin and the host (log entries 2 and 3). -/

namespace Sys2Proof

/-- FRAME_BYTES (00_scope.md R5). -/
@[simp] abbrev Config.frameBytes : Nat := 12
/-- N_PULSES = 8 × FRAME_BYTES (00_scope.md R5). -/
@[simp] abbrev Config.nPulses : Nat := 96
/-- N_SEG_MAX = FRAME_BYTES − 2 (00_scope.md R5). -/
@[simp] abbrev Config.nSegMax : Nat := 10
/-- N_CAL: entries in the calibration look-up table (00_scope.md R5). -/
@[simp] abbrev Config.nCal : Nat := 8
/-- BIT_THRESHOLD_US (00_scope.md R5). -/
@[simp] abbrev Config.bitThresholdUs : Nat := 26
/-- PREAMBLE (00_scope.md R5). -/
@[simp] abbrev Config.preamble : BitVec 4 := 0x9
/-- SENTINEL (00_scope.md R5). -/
@[simp] abbrev Config.sentinel : Byte := 0xFF
/-- CHECKSUM_BIAS (00_scope.md R5). -/
@[simp] abbrev Config.checksumBias : Int := 2
/-- NO_CAL_AVG (00_scope.md R5). -/
@[simp] abbrev Config.noCalAvg : Nat := 255
/-- TIMEOUT_RST_US (00_scope.md R5). -/
@[simp] abbrev Config.timeoutRstUs : BitVec 16 := 10000

/-- The OPEN parameters of 00_scope.md R5. (BASE is the fourth OPEN value of the spec; no rule depends
on it, 20_memory.md R107, so it is no field.) -/
structure Params where
  /-- TICKS_PER_US − 1. TICKS_PER_US is an integer ≥ 1 (R5); storing its predecessor leaves no
  forbidden value. -/
  ticksLess1 : Nat
  /-- P_SEL_OFF_RST, 0..65535: the reset value of SEL_OFF (10_state.md R35). -/
  selOffRst : BitVec 16
  /-- P_SEL_ON_RST, 0..65535: the reset value of SEL_ON (10_state.md R36). -/
  selOnRst : BitVec 16
deriving DecidableEq, Repr, Inhabited

/-- TICKS_PER_US: CLK rising edges per microsecond (00_scope.md R5). -/
def Params.ticksPerUs (p : Params) : Nat := p.ticksLess1 + 1

/-- The input pins a host drives at one edge (10_state.md R69). -/
structure HostPins where
  /-- RST, synchronous and active high (70_reset_and_hazards.md R410). -/
  rst : Bool
  /-- BUS_EN: a register-port operation at this edge. -/
  busEn : Bool
  /-- BUS_WE: 1 is a write, 0 a read; meaningful only when BUS_EN = 1. -/
  busWe : Bool
  /-- BUS_ADDR. -/
  busAddr : Addr
  /-- BUS_WDATA. -/
  busWdata : Word
deriving DecidableEq, Repr, Inhabited

/-- The values an implementation chooses for the OPEN parameters. FREE: no body (log entry 1). -/
opaque Config.openParams : Params

/-- The level the sensor environment drives on the RX pin at edge number `k`, where State's waveform
lists none: a draw, under no law (00_scope.md R6). FREE: no body (log entry 2). -/
opaque Config.rxDraw : Nat → Bool

/-- What the host drives at edge number `k`, where State's script lists nothing: reset, port idle, a read
or a write (00_scope.md R6). FREE: no body (log entry 3). -/
opaque Config.hostDraw : Nat → HostPins

/-- What BUS_RDATA holds at edge number `k` when no read is on the port; the spec states no value
(10_state.md R69). FREE: no body (log entry 4). -/
opaque Config.rdataDraw : Nat → Word

end Sys2Proof
end

