-- ==== Sys2Proof/Syntax.lean ====
section
/-! DEFINITION. The instructions: the eight commands a host writes to CMD (30_encoding.md R132,
opcode_table.json). One constructor per row of the table. The only operand is the sensor index s of
30_encoding.md R131; NOP and CLRCNT ignore SENSOR and have none (41_commands.md R182, R189). -/

namespace Sys2Proof

/-- A command of the block. -/
inductive Instr where
  /-- NOP, OP 0x0 (41_commands.md R182). -/
  | nop
  /-- READ s, OP 0x1: select, capture, decode, validate, level (41_commands.md R183). -/
  | read (sensor : Sensor)
  /-- SELECT s, OP 0x2: the address pulse train alone (41_commands.md R184). -/
  | select (sensor : Sensor)
  /-- CAPTURE s, OP 0x3: capture, decode, validate, level (41_commands.md R185). -/
  | capture (sensor : Sensor)
  /-- DECODE s, OP 0x4: decode, validate, level on host-written DUR (41_commands.md R186). -/
  | decode (sensor : Sensor)
  /-- VALIDATE s, OP 0x5: validate, level on host-written FRAME (41_commands.md R187). -/
  | validate (sensor : Sensor)
  /-- LEVEL s, OP 0x6: level on host-written SEG (41_commands.md R188). -/
  | level (sensor : Sensor)
  /-- CLRCNT, OP 0x7: clear the three error counters (41_commands.md R189). -/
  | clrcnt
deriving DecidableEq, Repr

end Sys2Proof
end

