-- ==== Sys2Proof/Decode.lean ====
section
/-! DEFINITION. The command decoder and encoder (30_encoding.md R130 to R134).

An instruction is ONE 32-bit word written to CMD; there is no other length, prefix or mode
(30_encoding.md R130). OP is bits 3:0, SENSOR bits 15:8, every other bit is ignored. OP 0x8..0xF is
reserved (R133): the decoder rejects it by name, and the edge that carries such a word sets STATUS.IGN
(41_commands.md R190), so the rejection stops nothing. -/

namespace Sys2Proof

/-- OP 0x0 (30_encoding.md R132). -/
abbrev opNop : Opcode := 0x0
/-- OP 0x1 (30_encoding.md R132). -/
abbrev opRead : Opcode := 0x1
/-- OP 0x2 (30_encoding.md R132). -/
abbrev opSelect : Opcode := 0x2
/-- OP 0x3 (30_encoding.md R132). -/
abbrev opCapture : Opcode := 0x3
/-- OP 0x4 (30_encoding.md R132). -/
abbrev opDecode : Opcode := 0x4
/-- OP 0x5 (30_encoding.md R132). -/
abbrev opValidate : Opcode := 0x5
/-- OP 0x6 (30_encoding.md R132). -/
abbrev opLevel : Opcode := 0x6
/-- OP 0x7 (30_encoding.md R132). -/
abbrev opClrcnt : Opcode := 0x7

/-- CMD[3:0] (30_encoding.md R130). -/
def opField (d : Word) : Opcode := d.extractLsb' 0 4

/-- CMD[15:8] (30_encoding.md R130, R131). -/
def sensorField (d : Word) : Sensor := d.extractLsb' 8 8

/-- Why a command word names no command. -/
inductive DecodeError where
  /-- OP 0x8..0xF is reserved (30_encoding.md R133). -/
  | reservedOp (op : Opcode)
deriving DecidableEq, Repr

/-- The command a word written to CMD names (30_encoding.md R130, R132, R133). Total: every word either
names a command or is rejected as a reserved OP. -/
def decode (d : Word) : Except DecodeError Instr :=
  match (opField d).toNat with
  | 0 => .ok .nop
  | 1 => .ok (.read (sensorField d))
  | 2 => .ok (.select (sensorField d))
  | 3 => .ok (.capture (sensorField d))
  | 4 => .ok (.decode (sensorField d))
  | 5 => .ok (.validate (sensorField d))
  | 6 => .ok (.level (sensorField d))
  | 7 => .ok .clrcnt
  | _ => .error (.reservedOp (opField d))

/-- The OP value of a command (30_encoding.md R132). -/
def Instr.op : Instr → Opcode
  | .nop => opNop
  | .read _ => opRead
  | .select _ => opSelect
  | .capture _ => opCapture
  | .decode _ => opDecode
  | .validate _ => opValidate
  | .level _ => opLevel
  | .clrcnt => opClrcnt

/-- The SENSOR value a command is written with; the commands without the operand are written with 0
(30_encoding.md R136: `NOP` is `W CMD, 0x00000000` and `CLRCNT` is `W CMD, 0x00000007`). -/
def Instr.sensor : Instr → Sensor
  | .nop => 0
  | .read s => s
  | .select s => s
  | .capture s => s
  | .decode s => s
  | .validate s => s
  | .level s => s
  | .clrcnt => 0

/-- A command word from its two fields, the ignored bits 0 (30_encoding.md R130). -/
def commandWord (op : Opcode) (sensor : Sensor) : Word := 0#16 ++ sensor ++ 0#4 ++ op

/-- The command word of an instruction, `(s << 8) | OP` (30_encoding.md R136). -/
def encode (i : Instr) : Word := commandWord i.op i.sensor

/-- The bits of an instruction numbered as opcode_table.json numbers them, as the one word the host
writes: bits at and above `nbits` are 0. -/
def tableWord (nbits w : Nat) : Word := BitVec.ofNat 32 (w % 2 ^ nbits)

/-- The instruction the decoder reads from an instruction whose bits are `w`. -/
def decodeTableWord (nbits w : Nat) : Option Instr :=
  match decode (tableWord nbits w) with
  | .ok i => some i
  | .error _ => none

end Sys2Proof
end

