-- ==== Sys2Proof/Machine/State.lean ====
section
/-! DEFINITION. The machine's state as plain data (10_state.md R30 to R69) and its value after reset
(70_reset_and_hazards.md R411).

One field per piece of state the spec names. CMD (R32), US_NOW (R45), STATUS.TXO and STATUS.RX (R33), the
IRQ, TX and BUS_RDATA pins hold nothing of their own: they are computed from the fields. The last four
fields are the model's own: the OPEN parameters, and what the two outside agents of 00_scope.md R6 drive
on the input pins at the coming edges. -/

namespace Sys2Proof.Machine

/-- The control phase, PHASE (10_state.md R54, R60). Codes 6 and 7 are never entered and have no
constructor (93_implementation_defined.md I21). -/
inductive Phase where
  | idle | selOff | selOn | capHigh | capLow | eval
deriving DecidableEq, Repr

/-- STATUS.RESULT (10_state.md R53). Codes 6 and 7 are never written and have no constructor
(93_implementation_defined.md I21). -/
inductive ResultCode where
  | none | ok | noResponse | preambleInvalid | checksumMismatch | levelFault
deriving DecidableEq, Repr

/-- The three counted failure codes an evaluation can raise (41_commands.md R195, 60_exceptions.md R370). -/
inductive FailCode where
  | noResponse | preambleInvalid | checksumMismatch
deriving DecidableEq, Repr

/-- One entry of the calibration look-up table, CAL[i] (10_state.md R46). -/
structure CalEntry where
  /-- CAL[i].VALID, bit 31. -/
  valid : Bool
  /-- CAL[i].REF, bits 15:0. -/
  ref : BitVec 16
deriving DecidableEq, Repr, Inhabited

/-- The argument of the frame validator: the decoder's output, or FRAME with FRAME_COUNT
(45_frame_validator.md R290). -/
inductive Frame where
  /-- `Empty`, a frame of count 0 (44_bit_byte_decoder.md R271). -/
  | empty
  /-- `Frame(b[0..11], cnt)`. -/
  | bytes (b : Vector Byte 12) (cnt : BitVec 4)
deriving DecidableEq, Repr

/-- What validation answers: `Fail(code)` or `Segs(seg[0..n-1])` (45_frame_validator.md R290). -/
inductive Verdict where
  | fail (code : FailCode)
  | segs (seg : List Byte)
deriving DecidableEq, Repr

/-- What the level function answers: `Pct(num, den)` or `LevelFault` (46_level_decoder.md R320). -/
inductive LevelResult where
  | pct (num den : Nat)
  | levelFault
deriving DecidableEq, Repr

/-- What one evaluation answers (41_commands.md R195). `frameOut` is `none` for VALIDATE and LEVEL. -/
inductive EvalResult where
  | fail (code : FailCode) (frameOut : Option Frame)
  | done (frameOut : Option Frame) (seg : List Byte) (lv : LevelResult)
deriving DecidableEq, Repr

/-- The port operation of one edge (40_host_access.md R160). -/
inductive BusOp where
  | none
  | read (a : Addr)
  | write (a : Addr) (d : Word)
deriving DecidableEq, Repr

/-- The registers of the register map (10_state.md section 2, 40_host_access.md R161). -/
inductive Reg where
  | ctrl | cmd | status | timeout | selOff | selOn | levelNum | levelDen
  | cntNoresp | cntPreamble | cntChecksum | durCount | frameCount | segCount | usNow
  | cal (i : Fin 8) | frame (i : Fin 12) | seg (i : Fin 10) | dur (i : Fin 96)
  | unmapped
deriving DecidableEq, Repr

/-- How a register answers a host write, by the classes of 10_state.md R51 and section 2. -/
inductive Access where
  /-- RW-idle. -/
  | rwIdle
  /-- RO. -/
  | ro
  /-- STATUS: read-only fields and the two W1C bits. -/
  | w1c
  /-- CMD: write-only. -/
  | wo
  /-- An unmapped offset, RAZ/WI. -/
  | unmapped
deriving DecidableEq, Repr

/-- The state before one CLK edge, S(k) (00_scope.md R7). -/
@[ext]
structure State where
  /-- CTRL.TO_EN (10_state.md R31). -/
  toEn : Bool
  /-- CTRL.IE (10_state.md R31). -/
  ie : Bool
  /-- CTRL.TX: the flip-flop that drives the TX pin (10_state.md R31, 42_bus_addressor.md R225). -/
  tx : Bool
  /-- STATUS.BUSY (10_state.md R33). -/
  busy : Bool
  /-- STATUS.DONE (10_state.md R33). -/
  done : Bool
  /-- STATUS.IGN (10_state.md R33). -/
  ign : Bool
  /-- STATUS.RESULT (10_state.md R53). -/
  result : ResultCode
  /-- TIMEOUT.TIMEOUT_US (10_state.md R34). -/
  timeoutUs : BitVec 16
  /-- SEL_OFF.SEL_OFF_US (10_state.md R35). -/
  selOffUs : BitVec 16
  /-- SEL_ON.SEL_ON_US (10_state.md R36). -/
  selOnUs : BitVec 16
  /-- LEVEL_NUM, two's complement (10_state.md R37). -/
  levelNum : Word
  /-- LEVEL_DEN, unsigned (10_state.md R38). -/
  levelDen : Word
  /-- CNT_NORESP (10_state.md R39). -/
  cntNoresp : Word
  /-- CNT_PREAMBLE (10_state.md R40). -/
  cntPreamble : Word
  /-- CNT_CHECKSUM (10_state.md R41). -/
  cntChecksum : Word
  /-- DUR_COUNT (10_state.md R42). -/
  durCount : BitVec 7
  /-- FRAME_COUNT (10_state.md R43). -/
  frameCount : BitVec 4
  /-- SEG_COUNT (10_state.md R44). -/
  segCount : BitVec 4
  /-- CAL[0..7] (10_state.md R46). -/
  cal : Vector CalEntry 8
  /-- FRAME[0..11] (10_state.md R47). -/
  frame : Vector Byte 12
  /-- SEG[0..9] (10_state.md R48). -/
  seg : Vector Byte 10
  /-- DUR[0..95] (10_state.md R49). -/
  dur : Vector Duration 96
  /-- PHASE (10_state.md R60). -/
  phase : Phase
  /-- sync1, the first synchroniser stage (10_state.md R62). -/
  sync1 : Bool
  /-- sync2 = rx_s, the second synchroniser stage (10_state.md R62). -/
  sync2 : Bool
  /-- PRE, the microsecond prescaler, 0..TICKS_PER_US−1 (10_state.md R63). -/
  pre : Nat
  /-- US, the microsecond counter (10_state.md R63). -/
  us : Micros
  /-- T_START (10_state.md R64). -/
  tStart : Micros
  /-- T_FALL (10_state.md R65). -/
  tFall : Micros
  /-- SEL_REMAIN (10_state.md R66). -/
  selRemain : BitVec 9
  /-- CUR_OP (10_state.md R67). -/
  curOp : Opcode
  /-- CUR_S (10_state.md R67). -/
  curS : Sensor
  /-- The model's own: the OPEN parameters (00_scope.md R5), which no step changes (log entry 1). -/
  params : Params
  /-- The model's own: what the host drives at the coming edges, the next first; when it is empty the
  host is a free draw (00_scope.md R6, log entry 3). -/
  host : List HostPins
  /-- The model's own: the RX pin at the coming edges, the next first; when it is empty the pin is a free
  draw (00_scope.md R6, log entry 2). -/
  rxWave : List Bool
  /-- The model's own: how many edges have passed, the counter the free draws are indexed by. -/
  edge : Nat
deriving DecidableEq, Repr

/-- Why a step stops with a fault. There is no constructor: the block has no trap, no address fault and
no bus error, every port operation completes at its edge and every failed evaluation ends normally with
a result code (60_exceptions.md R372). Nobody raises one; safe. -/
inductive Fault where
deriving DecidableEq, Repr

/-- Why a step refuses. -/
inductive Refusal where
  /-- An instruction of the opcode table without a meaning yet. Only `exec`'s refused arms may raise it,
  and no arm is refused any more; safe. -/
  | notModelled (mnemonic : String)
deriving DecidableEq, Repr

/-- The state after reset of an implementation with the parameters `p`, nothing placed on its input pins:
every value of the table of 70_reset_and_hazards.md R411. -/
def State.resetWith (p : Params) : State where
  toEn := true
  ie := false
  tx := false
  busy := false
  done := false
  ign := false
  result := .none
  timeoutUs := Config.timeoutRstUs
  selOffUs := p.selOffRst
  selOnUs := p.selOnRst
  levelNum := 0xFFFFFFFF
  levelDen := 1
  cntNoresp := 0
  cntPreamble := 0
  cntChecksum := 0
  durCount := 0
  frameCount := 0
  segCount := 0
  cal := Vector.replicate 8 { valid := false, ref := 0 }
  frame := Vector.replicate 12 0
  seg := Vector.replicate 10 0
  dur := Vector.replicate 96 0
  phase := .idle
  sync1 := true
  sync2 := true
  pre := 0
  us := 0
  tStart := 0
  tFall := 0
  selRemain := 0
  curOp := 0
  curS := 0
  params := p
  host := []
  rxWave := []
  edge := 0

/-- S(1): the machine right after reset (70_reset_and_hazards.md R410, R411), for the parameters the
implementation chose. -/
def State.reset : State := State.resetWith Config.openParams

end Sys2Proof.Machine
end

