-- ==== Sys2Proof/Machine/Flags.lean ====
section
/-! DEFINITION. The flags: STATUS and CTRL as words, and everything that sets, clears or computes a
flag (10_state.md R31, R33, R53, R54, R68; 41_commands.md R196; 40_host_access.md R166). -/

namespace Sys2Proof.Machine

/-- The 3-bit code of a phase (10_state.md R54). -/
def Phase.code : Phase → BitVec 3
  | .idle => 0
  | .selOff => 1
  | .selOn => 2
  | .capHigh => 3
  | .capLow => 4
  | .eval => 5

/-- The 3-bit code of a result (10_state.md R53). -/
def ResultCode.code : ResultCode → BitVec 3
  | .none => 0
  | .ok => 1
  | .noResponse => 2
  | .preambleInvalid => 3
  | .checksumMismatch => 4
  | .levelFault => 5

/-- The result code a failure is recorded as (60_exceptions.md R370). -/
def FailCode.result : FailCode → ResultCode
  | .noResponse => .noResponse
  | .preambleInvalid => .preambleInvalid
  | .checksumMismatch => .checksumMismatch

/-- CTRL as the host reads it: TO_EN bit 0, IE bit 1, TX bit 2 (10_state.md R31). -/
def State.ctrlWord (s : State) : Word :=
  0#29 ++ BitVec.ofBool s.tx ++ BitVec.ofBool s.ie ++ BitVec.ofBool s.toEn

/-- STATUS as the host reads it: BUSY bit 0, DONE bit 1, IGN bit 2, RESULT bits 6:4, PHASE bits 10:8,
RX bit 16 (which is rx_s = sync2) and TXO bit 17 (10_state.md R33). -/
def State.statusWord (s : State) : Word :=
  0#14 ++ BitVec.ofBool s.tx ++ BitVec.ofBool s.sync2 ++ 0#5 ++ s.phase.code ++ 0#1 ++ s.result.code
    ++ 0#1 ++ BitVec.ofBool s.ign ++ BitVec.ofBool s.done ++ BitVec.ofBool s.busy

/-- STATUS.IGN ← 1: a request was ignored (60_exceptions.md R371). -/
def State.setIgn (s : State) : State := { s with ign := true }

/-- A host write of `d` to STATUS: the bits written 1 among DONE (bit 1) and IGN (bit 2) are cleared, every
other bit of `d` is ignored (40_host_access.md R166). That a DONE set at the same edge wins is said by
`advance`, which applies the units' writes after this one. -/
def State.clearFlags (d : Word) (s : State) : State :=
  { s with done := s.done && !d.getLsbD 1, ign := s.ign && !d.getLsbD 2 }

/-- `end()`: PHASE ← IDLE, BUSY ← 0, DONE ← 1 (41_commands.md R196). -/
def State.endCommand (s : State) : State := { s with phase := .idle, busy := false, done := true }

/-- The IRQ output: STATUS.DONE AND CTRL.IE (10_state.md R68, 60_exceptions.md R373). -/
def State.irq (s : State) : Bool := s.done && s.ie

/-- The TX pin: driven from CTRL.TX at all times (42_bus_addressor.md R225). -/
def State.txPin (s : State) : Bool := s.tx

end Sys2Proof.Machine
end

