-- ==== Sys2Proof/Machine/Operands.lean ====
section
/-! DEFINITION. The operands: what a command's sensor index s stands for (30_encoding.md R131), and the
address of a port operation (40_host_access.md R160, R161). -/

namespace Sys2Proof.Machine

/-- The number of off→on pulses that address sensor s: s + 1, 1..256 (30_encoding.md R131,
42_bus_addressor.md R221). -/
def pulseCount (sensor : Sensor) : BitVec 9 := sensor.zeroExtend 9 + 1

/-- `calLookup(S, s)`: the reference of sensor s where s < 8 and CAL[s].VALID = 1, else absent
(46_level_decoder.md R321). -/
def calLookup (cal : Vector CalEntry 8) (sensor : Sensor) : Option (BitVec 16) :=
  match cal[sensor.toNat]? with
  | some e => if e.valid then some e.ref else none
  | none => none

/-- The word index of a byte address, a[11:2]; a[1:0] are ignored (20_memory.md R104,
40_host_access.md R160). -/
def wordIndex (a : Addr) : Nat := (a.extractLsb' 2 10).toNat

/-- `reg(w)`: the register whose offset is 4·w, or `unmapped` (40_host_access.md R161, 10_state.md R50). -/
def regAtIndex (w : Nat) : Reg :=
  match w with
  | 0 => .ctrl
  | 1 => .cmd
  | 2 => .status
  | 3 => .timeout
  | 4 => .selOff
  | 5 => .selOn
  | 6 => .levelNum
  | 7 => .levelDen
  | 8 => .cntNoresp
  | 9 => .cntPreamble
  | 10 => .cntChecksum
  | 11 => .durCount
  | 12 => .frameCount
  | 13 => .segCount
  | 14 => .usNow
  | w =>
    if h : 16 ≤ w ∧ w < 24 then .cal ⟨w - 16, by omega⟩
    else if h : 32 ≤ w ∧ w < 44 then .frame ⟨w - 32, by omega⟩
    else if h : 48 ≤ w ∧ w < 58 then .seg ⟨w - 48, by omega⟩
    else if h : 64 ≤ w ∧ w < 160 then .dur ⟨w - 64, by omega⟩
    else .unmapped

/-- The register a port operation at byte address `a` reaches (40_host_access.md R161). -/
def regAt (a : Addr) : Reg := regAtIndex (wordIndex a)

/-- The byte offset of a register (10_state.md section 2); an unmapped place has none. -/
def Reg.offset : Reg → Option Addr
  | .ctrl => some 0x000
  | .cmd => some 0x004
  | .status => some 0x008
  | .timeout => some 0x00C
  | .selOff => some 0x010
  | .selOn => some 0x014
  | .levelNum => some 0x018
  | .levelDen => some 0x01C
  | .cntNoresp => some 0x020
  | .cntPreamble => some 0x024
  | .cntChecksum => some 0x028
  | .durCount => some 0x02C
  | .frameCount => some 0x030
  | .segCount => some 0x034
  | .usNow => some 0x038
  | .cal i => some (BitVec.ofNat 12 (0x040 + 4 * i.val))
  | .frame i => some (BitVec.ofNat 12 (0x080 + 4 * i.val))
  | .seg i => some (BitVec.ofNat 12 (0x0C0 + 4 * i.val))
  | .dur i => some (BitVec.ofNat 12 (0x100 + 4 * i.val))
  | .unmapped => none

/-- The access class of each register (10_state.md R51 and section 2). -/
def Reg.access : Reg → Access
  | .ctrl => .rwIdle
  | .cmd => .wo
  | .status => .w1c
  | .timeout => .rwIdle
  | .selOff => .rwIdle
  | .selOn => .rwIdle
  | .levelNum => .ro
  | .levelDen => .ro
  | .cntNoresp => .ro
  | .cntPreamble => .ro
  | .cntChecksum => .ro
  | .durCount => .rwIdle
  | .frameCount => .rwIdle
  | .segCount => .rwIdle
  | .usNow => .ro
  | .cal _ => .rwIdle
  | .frame _ => .rwIdle
  | .seg _ => .rwIdle
  | .dur _ => .rwIdle
  | .unmapped => .unmapped

end Sys2Proof.Machine
end

