-- ==== Sys2Proof/Machine/Ops.lean ====
section
/-! DEFINITION. The shared operations: time (42_bus_addressor.md R220, 43_pulse_capture.md R240, R241),
the register load and store (40_host_access.md R162, R163), starting a command (41_commands.md R181), and
the failure commit.

The block has no exception entry and no exception return (60_exceptions.md R378, R379). What the spec
calls the closest analogue, the commit of a failure, is ONE operation here, `raiseFailure`, the `raise` of
00_scope.md R11; its acknowledgement by the host is `State.clearFlags`. -/

namespace Sys2Proof.Machine

/-! ## Time -/

/-- `elapsed(j, T)` = (US(j) − T) mod 2^32 (42_bus_addressor.md R220). -/
def elapsed (us start : Micros) : Micros := us - start

/-- elapsed ≥ N for a 16-bit number of microseconds N (42_bus_addressor.md R222, R223;
43_pulse_capture.md R244, R245). -/
def hasElapsed (us start : Micros) (n : BitVec 16) : Bool := n.toNat ≤ (elapsed us start).toNat

/-- `sat_16` of a 32-bit difference (00_scope.md R10, 43_pulse_capture.md R245). -/
def sat16 (v : Micros) : Duration := BitVec.ofNat 16 (min v.toNat (2 ^ 16 - 1))

/-- `sat_32(v + 1)`: a counter's increment, saturating (00_scope.md R10, 47_commit_and_counters.md R353). -/
def satInc (v : Word) : Word := BitVec.ofNat 32 (min (v.toNat + 1) (2 ^ 32 - 1))

/-- One edge of the RX synchroniser and of the microsecond timebase, whatever the PHASE
(43_pulse_capture.md R240, R241): reads the pre-edge state `s` and the pin, writes `t`. -/
def timebase (rxPin : Bool) (s t : State) : State :=
  { t with
    sync1 := rxPin
    sync2 := s.sync1
    pre := if s.pre = s.params.ticksLess1 then 0 else s.pre + 1
    us := if s.pre = s.params.ticksLess1 then s.us + 1 else s.us }

/-! ## Register load and store -/

/-- `readval(r, S)`: the word whose fields are r's fields in S, reserved bits 0; CMD and every unmapped
offset read 0 (40_host_access.md R162). -/
def readval (r : Reg) (s : State) : Word :=
  match r with
  | .ctrl => s.ctrlWord
  | .cmd => 0
  | .status => s.statusWord
  | .timeout => s.timeoutUs.zeroExtend 32
  | .selOff => s.selOffUs.zeroExtend 32
  | .selOn => s.selOnUs.zeroExtend 32
  | .levelNum => s.levelNum
  | .levelDen => s.levelDen
  | .cntNoresp => s.cntNoresp
  | .cntPreamble => s.cntPreamble
  | .cntChecksum => s.cntChecksum
  | .durCount => s.durCount.zeroExtend 32
  | .frameCount => s.frameCount.zeroExtend 32
  | .segCount => s.segCount.zeroExtend 32
  | .usNow => s.us
  | .cal i => BitVec.ofBool s.cal[i].valid ++ 0#15 ++ s.cal[i].ref
  | .frame i => s.frame[i].zeroExtend 32
  | .seg i => s.seg[i].zeroExtend 32
  | .dur i => s.dur[i].zeroExtend 32
  | .unmapped => 0

/-- The legal value a write of `v` to SEG_COUNT stores: min(v, 10) (10_state.md R44,
40_host_access.md R168). -/
def legalSegCount (v : BitVec 4) : BitVec 4 := if 10 < v.toNat then 10 else v

/-- The register store: each non-reserved field of a RW-idle register takes its bits of `d`
(40_host_access.md R163, R168). A register that is not RW-idle is not changed by it. -/
def store (r : Reg) (d : Word) (s : State) : State :=
  match r with
  | .ctrl => { s with toEn := d.getLsbD 0, ie := d.getLsbD 1, tx := d.getLsbD 2 }
  | .timeout => { s with timeoutUs := d.extractLsb' 0 16 }
  | .selOff => { s with selOffUs := d.extractLsb' 0 16 }
  | .selOn => { s with selOnUs := d.extractLsb' 0 16 }
  | .durCount => { s with durCount := d.extractLsb' 0 7 }
  | .frameCount => { s with frameCount := d.extractLsb' 0 4 }
  | .segCount => { s with segCount := legalSegCount (d.extractLsb' 0 4) }
  | .cal i => { s with cal := s.cal.set i { valid := d.getLsbD 31, ref := d.extractLsb' 0 16 } }
  | .frame i => { s with frame := s.frame.set i (d.extractLsb' 0 8) }
  | .seg i => { s with seg := s.seg.set i (d.extractLsb' 0 8) }
  | .dur i => { s with dur := s.dur.set i (d.extractLsb' 0 16) }
  | .cmd => s
  | .status => s
  | .levelNum => s
  | .levelDen => s
  | .cntNoresp => s
  | .cntPreamble => s
  | .cntChecksum => s
  | .usNow => s
  | .unmapped => s

/-- A host write to a register other than CMD, by its access class (10_state.md R51): RW-idle stores
while BUSY = 0 and sets IGN while BUSY = 1 (40_host_access.md R163, R164); STATUS clears its W1C bits
(R166); RO and unmapped change nothing (R165). CMD is dispatched by `step` (R167) and changes no field
here. -/
def hostWrite (r : Reg) (d : Word) (s : State) : State :=
  match r.access with
  | .rwIdle => if s.busy then s.setIgn else store r d s
  | .w1c => s.clearFlags d
  | .ro => s
  | .wo => s
  | .unmapped => s

/-! ## Starting a command -/

/-- The part of `start(op, s)` every command shares: BUSY ← 1, DONE ← 0, CUR_OP and CUR_S latched
(41_commands.md R181). -/
def startCommand (op : Opcode) (sensor : Sensor) (s : State) : State :=
  { s with busy := true, done := false, curOp := op, curS := sensor }

/-- PHASE ← EVAL: the start of DECODE, VALIDATE and LEVEL (41_commands.md R181), and the end of a capture,
complete or aborted (43_pulse_capture.md R247 to R249). -/
def beginEval (t : State) : State := { t with phase := .eval }

/-- The dispatch of a command with OP 0x1..0x7: ignored with IGN while BUSY = 1, else it acts
(41_commands.md R180). -/
def whenIdle (act : State → State) (s : State) : State := if s.busy then s.setIgn else act s

/-! ## The failure commit -/

/-- FRAME[0..11] ← b, FRAME_COUNT ← 12 (47_commit_and_counters.md R351). -/
def writeFrame (b : Vector Byte 12) (t : State) : State := { t with frame := b, frameCount := 12 }

/-- FRAME_COUNT ← 0, FRAME[0..11] unchanged (47_commit_and_counters.md R351). -/
def dropFrame (t : State) : State := { t with frameCount := 0 }

/-- `commitFrame(frameOut)` (47_commit_and_counters.md R351). -/
def commitFrame (frameOut : Option Frame) (t : State) : State :=
  match frameOut with
  | some (.bytes b _) => writeFrame b t
  | some .empty => dropFrame t
  | none => t

/-- `countFailure(code)`: exactly one counter is incremented, saturating (47_commit_and_counters.md R353). -/
def countFailure (code : FailCode) (t : State) : State :=
  match code with
  | .noResponse => { t with cntNoresp := satInc t.cntNoresp }
  | .preambleInvalid => { t with cntPreamble := satInc t.cntPreamble }
  | .checksumMismatch => { t with cntChecksum := satInc t.cntChecksum }

/-- STATUS.RESULT ← r (10_state.md R53). -/
def setResult (r : ResultCode) (t : State) : State := { t with result := r }

/-- SEG_COUNT ← 0, SEG[0..9] unchanged (47_commit_and_counters.md R352). -/
def dropSegments (t : State) : State := { t with segCount := 0 }

/-- The failure sentinel: LEVEL_NUM ← −1, LEVEL_DEN ← 1 (47_commit_and_counters.md R352). -/
def levelSentinel (t : State) : State := { t with levelNum := 0xFFFFFFFF, levelDen := 1 }

/-- `raise <Result>`: the commit of `Fail(code)` (00_scope.md R11, 47_commit_and_counters.md R352). -/
def raiseFailure (op : Opcode) (code : FailCode) (frameOut : Option Frame) (t : State) : State :=
  let framed := commitFrame frameOut t
  levelSentinel (countFailure code (setResult code.result
    (if op = opLevel then framed else dropSegments framed)))

/-! ## Reset -/

/-- An edge with RST = 1: every state element takes its reset value, whatever the other inputs
(70_reset_and_hazards.md R410, R411). Only the model's own fields pass through. -/
def resetEdge (s : State) : State :=
  { State.resetWith s.params with
    host := s.host.tail
    rxWave := s.rxWave.tail
    edge := s.edge + 1 }

end Sys2Proof.Machine
end

