-- ==== Sys2Proof/Machine/Pins.lean ====
section
/-! DEFINITION. The pins (10_state.md R69): what the outside agents drive at the coming edge, the port
operation this makes, and the block's outputs. -/

namespace Sys2Proof.Machine

/-- The host's pins at the coming edge: the script's next entry, or a free draw (00_scope.md R6). -/
def State.hostPins (s : State) : HostPins :=
  match s.host with
  | p :: _ => p
  | [] => Config.hostDraw s.edge

/-- rx_pin(k) at the coming edge: the waveform's next level, or a free draw (00_scope.md R6). -/
def State.rxPin (s : State) : Bool :=
  match s.rxWave with
  | b :: _ => b
  | [] => Config.rxDraw s.edge

/-- The port operation the pins carry (40_host_access.md R160). -/
def busOpOf (p : HostPins) : BusOp :=
  if p.busEn then (if p.busWe then .write p.busAddr p.busWdata else .read p.busAddr) else .none

/-- bus(k), the port operation of the coming edge (00_scope.md R7). -/
def State.busOp (s : State) : BusOp := busOpOf s.hostPins

/-- The BUS_RDATA pin: during a read the value computed from the pre-edge state, at a reset edge too
(40_host_access.md R162, 70_reset_and_hazards.md R410); otherwise a free value (log entry 4). -/
def State.busRdata (s : State) : Word :=
  match s.busOp with
  | .read a => readval (regAt a) s
  | .write _ _ => Config.rdataDraw s.edge
  | .none => Config.rdataDraw s.edge

/-- The pins of a host that carries out `op` with RST = 0. -/
def pinsOf (op : BusOp) : HostPins :=
  match op with
  | .none => { rst := false, busEn := false, busWe := false, busAddr := 0, busWdata := 0 }
  | .read a => { rst := false, busEn := true, busWe := false, busAddr := a, busWdata := 0 }
  | .write a d => { rst := false, busEn := true, busWe := true, busAddr := a, busWdata := d }

/-- The pins of a host that writes the word `d` to CMD, offset 0x004 (30_encoding.md R135: `W CMD, d`). -/
def cmdWritePins (d : Word) : HostPins := pinsOf (.write 0x004 d)

/-- `s` with the host's pins of the coming edge replaced by `p`; the entries after it stay. -/
def State.drive (s : State) (p : HostPins) : State := { s with host := p :: s.host.tail }

/-- One edge's inputs are used up: the outside agents move on to the next edge. -/
def consume (s t : State) : State :=
  { t with host := s.host.tail, rxWave := s.rxWave.tail, edge := s.edge + 1 }

end Sys2Proof.Machine
end

