-- ==== Sys2Proof/Machine/Capture.lean ====
section
/-! DEFINITION. The Pulse Capture Engine (43_pulse_capture.md). Each unit step reads the pre-edge state
`s` and writes `t` (00_scope.md R7). -/

namespace Sys2Proof.Machine

/-- `begin capture()` (43_pulse_capture.md R243): only DUR_COUNT is cleared (R255). -/
def beginCapture (s t : State) : State :=
  { t with durCount := 0, tStart := s.us, phase := .capHigh }

/-- A capture wait's timeout condition: TO_EN = 1 and elapsed ≥ TIMEOUT_US (43_pulse_capture.md R244,
R245, R248, R249). -/
def timedOut (s : State) (start : Micros) : Bool := s.toEn && hasElapsed s.us start s.timeoutUs

/-- A low level seen: T_FALL ← US and PHASE ← CAP_LOW (43_pulse_capture.md R244). -/
def startPulse (s t : State) : State := { t with tFall := s.us, phase := .capLow }

/-- The CAP_HIGH step: a low level starts a pulse; the level wins over the timeout (43_pulse_capture.md
R244, R250). -/
def capHighStep (s t : State) : State :=
  if s.sync2 = false then startPulse s t
  else if timedOut s s.tStart then beginEval t
  else t

/-- What the rising edge stores: DUR[c] ← sat_16(elapsed), DUR_COUNT ← c + 1 (43_pulse_capture.md R245). A c
above 95, which no reachable state has, has no element to store to. -/
def storeDuration (s t : State) : State :=
  { t with
    dur := t.dur.setIfInBounds s.durCount.toNat (sat16 (elapsed s.us s.tFall))
    durCount := s.durCount + 1 }

/-- The wait for the next pulse: T_START ← US and PHASE ← CAP_HIGH (43_pulse_capture.md R245). -/
def nextWait (s t : State) : State := { t with tStart := s.us, phase := .capHigh }

/-- The CAP_LOW step: a high level stores the duration, and the 96th completes the capture
(43_pulse_capture.md R245, R247, R250). -/
def capLowStep (s t : State) : State :=
  if s.sync2 = true then
    (if s.durCount.toNat + 1 = Config.nPulses then beginEval (storeDuration s t)
     else nextWait s (storeDuration s t))
  else if timedOut s s.tFall then beginEval t
  else t

end Sys2Proof.Machine
end

