-- ==== Sys2Proof/Machine/Addressor.lean ====
section
/-! DEFINITION. The Bus Addressor (42_bus_addressor.md). Each unit step reads the pre-edge state `s` and
writes `t` (00_scope.md R7). -/

namespace Sys2Proof.Machine

/-- `begin select(s)`: the first pulse's off phase (42_bus_addressor.md R221). -/
def beginSelect (sensor : Sensor) (s t : State) : State :=
  { t with selRemain := pulseCount sensor, tx := false, tStart := s.us, phase := .selOff }

/-- The end of an off hold: TX ← 1 and the on hold begins (42_bus_addressor.md R222). -/
def turnOn (s t : State) : State := { t with tx := true, tStart := s.us, phase := .selOn }

/-- The SEL_OFF step (42_bus_addressor.md R222). -/
def selOffStep (s t : State) : State :=
  if hasElapsed s.us s.tStart s.selOffUs then turnOn s t else t

/-- The end of a pulse that is not the last: the next off phase (42_bus_addressor.md R223). -/
def nextPulse (s t : State) : State :=
  { t with selRemain := s.selRemain - 1, tx := false, tStart := s.us, phase := .selOff }

/-- SEL_REMAIN ← 0: no pulse is left (42_bus_addressor.md R223). -/
def clearRemain (t : State) : State := { t with selRemain := 0 }

/-- The end of the last pulse: READ goes on to capture, SELECT ends with RESULT = NONE
(42_bus_addressor.md R223, 41_commands.md R184). -/
def selectDone (s t : State) : State :=
  if s.curOp = opRead then beginCapture s (clearRemain t)
  else if s.curOp = opSelect then (setResult .none (clearRemain t)).endCommand
  else clearRemain t

/-- The SEL_ON step (42_bus_addressor.md R223). -/
def selOnStep (s t : State) : State :=
  if hasElapsed s.us s.tStart s.selOnUs then
    (if 1 < s.selRemain.toNat then nextPulse s t else selectDone s t)
  else t

end Sys2Proof.Machine
end

