-- ==== Sys2Proof/Machine/BitByte.lean ====
section
/-! DEFINITION. The Bit/Byte Decoder (44_bit_byte_decoder.md): pure functions of DUR and DUR_COUNT. -/

namespace Sys2Proof.Machine

/-- bit(d): 1 when d > 26, else 0 (44_bit_byte_decoder.md R272). -/
def durationBit (d : Duration) : Nat := if Config.bitThresholdUs < d.toNat then 1 else 0

/-- DUR[n]; n is always below 96 where it is used. -/
def durationAt (dur : Vector Duration 96) (n : Nat) : Duration := dur[n]?.getD 0

/-- byte[j] = Σ bit(DUR[8j + i]) << (7 − i): the first duration of a group is the most significant bit
(44_bit_byte_decoder.md R270, R273). -/
def decodedByte (dur : Vector Duration 96) (j : Nat) : Byte :=
  BitVec.ofNat 8 (((List.range 8).map fun i => durationBit (durationAt dur (8 * j + i)) * 2 ^ (7 - i)).sum)

/-- decode(DUR, DUR_COUNT): twelve bytes when the count is exactly 96, else `Empty`
(44_bit_byte_decoder.md R270, R271). -/
def decodeDurations (dur : Vector Duration 96) (cnt : BitVec 7) : Frame :=
  if cnt.toNat = Config.nPulses then .bytes (Vector.ofFn fun j : Fin 12 => decodedByte dur j.val) 12
  else .empty

end Sys2Proof.Machine
end

