-- ==== Sys2Proof/Machine/Validator.lean ====
section
/-! DEFINITION. The Frame Validator (45_frame_validator.md): pure functions of a frame. -/

namespace Sys2Proof.Machine

/-- b[i]; i is always below 12 where it is used. -/
def frameByte (b : Vector Byte 12) (i : Nat) : Byte := b[i]?.getD 0

/-- The backward scan of step 3 from index `bs`: while bs ≥ 2 and b[bs] = 0xFF, bs ← bs − 1
(45_frame_validator.md R290, R293). -/
def trimFrom (b : Vector Byte 12) (bs : Nat) : Nat :=
  match bs with
  | 0 => 0
  | n + 1 => if 2 ≤ n + 1 ∧ frameByte b (n + 1) = Config.sentinel then trimFrom b n else n + 1

/-- base_seg: the largest index in 2..11 whose byte is not 0xFF, or 1 (45_frame_validator.md R293). -/
def baseSeg (b : Vector Byte 12) : Nat := trimFrom b 11

/-- The sum of a list of bytes as an integer. -/
def sumBytes (seg : List Byte) : Nat := (seg.map BitVec.toNat).sum

/-- b[2..base_seg], inclusive: the segment bytes before the quirk (45_frame_validator.md R295). -/
def rawSegments (b : Vector Byte 12) : List Byte :=
  (List.range (baseSeg b - 1)).map fun j => frameByte b (2 + j)

/-- cs = (Σ b[2..base_seg] − 2) mod 256, the non-negative remainder (45_frame_validator.md R294). -/
def checksum (b : Vector Byte 12) : Byte :=
  BitVec.ofInt 8 ((sumBytes (rawSegments b) : Int) - Config.checksumBias)

/-- The step-5 quirk: with at least two segments and seg[1] = 0, seg[0] becomes 0
(45_frame_validator.md R296). -/
def quirk (seg : List Byte) : List Byte :=
  match seg with
  | x :: y :: rest => (if y = 0 then 0 else x) :: y :: rest
  | _ => seg

/-- The preamble nibble b[0][7:4] (45_frame_validator.md R292). -/
def preambleNibble (b : Vector Byte 12) : BitVec 4 := (frameByte b 0).extractLsb' 4 4

/-- validate(f): the steps in order, the first failing one deciding (45_frame_validator.md R290 to R297). -/
def validate (f : Frame) : Verdict :=
  match f with
  | .empty => .fail .noResponse
  | .bytes b cnt =>
    if cnt.toNat ≠ Config.frameBytes then .fail .noResponse
    else if preambleNibble b ≠ Config.preamble then .fail .preambleInvalid
    else if checksum b ≠ frameByte b 1 then .fail .checksumMismatch
    else .segs (quirk (rawSegments b))

end Sys2Proof.Machine
end

