-- ==== Sys2Proof/Machine/Level.lean ====
section
/-! DEFINITION. The Level Decoder (46_level_decoder.md): exact integer numerators and denominators, never
reduced (R329), no segment reordered (R332). -/

namespace Sys2Proof.Machine

/-- An uncalibrated result above 100 % is replaced by Pct(100, 1) (46_level_decoder.md R326). -/
def clampPct (num den : Nat) : LevelResult := if 100 * den < num then .pct 100 1 else .pct num den

/-- The calibrated branch: Pct(100·S, R), uncapped; a zero reference divides by zero
(46_level_decoder.md R327, R328). -/
def calibratedLevel (seg : List Byte) (ref : BitVec 16) : LevelResult :=
  if ref.toNat = 0 then .levelFault else .pct (100 * sumBytes seg) ref.toNat

/-- The uncalibrated branch for n segments, where `x` is seg[level_seg] and `after` the k segments after
it (46_level_decoder.md R323 to R326). -/
def uncalibratedLevel (n : Nat) (x : Byte) (after : List Byte) : LevelResult :=
  if after.length = 0 then clampPct (100 * x.toNat) (Config.noCalAvg * n)
  else if sumBytes after = 0 then .levelFault
  else clampPct (100 * after.length * (x.toNat + sumBytes after)) (sumBytes after * n)

/-- level(seg, cal) (46_level_decoder.md R320). Dropping the leading zero bytes leaves seg[level_seg]
followed by the segments after it, or nothing when every byte is 0 (R322). -/
def level (seg : List Byte) (cal : Option (BitVec 16)) : LevelResult :=
  match seg.dropWhile (fun b => b == 0) with
  | [] => .pct 0 1
  | x :: after =>
    match cal with
    | some ref => calibratedLevel seg ref
    | none => uncalibratedLevel seg.length x after

end Sys2Proof.Machine
end

