-- ==== Sys2Proof/Machine/Commit.lean ====
section
/-! DEFINITION. The evaluation of one command and the commit of its result (41_commands.md R194, R195;
47_commit_and_counters.md). -/

namespace Sys2Proof.Machine

/-- SEG[0..SEG_COUNT−1], the input of LEVEL (41_commands.md R195). -/
def State.segments (s : State) : List Byte := s.seg.toList.take s.segCount.toNat

/-- The end of `eval`: a validation failure keeps `frameOut`, a success goes on to the level
(41_commands.md R195). -/
def levelOf (frameOut : Option Frame) (v : Verdict) (cal : Option (BitVec 16)) : EvalResult :=
  match v with
  | .fail code => .fail code frameOut
  | .segs seg => .done frameOut seg (level seg cal)

/-- The operations whose frame is decoded from DUR: READ, CAPTURE and DECODE (41_commands.md R195). -/
def decodesFrame (op : Opcode) : Bool := op == opRead || op == opCapture || op == opDecode

/-- The operations that commit segments: READ, CAPTURE, DECODE and VALIDATE
(47_commit_and_counters.md R351). -/
def commitsSegments (op : Opcode) : Bool := decodesFrame op || op == opValidate

/-- eval(op, S) (41_commands.md R195), `none` for a CUR_OP whose command never reaches EVAL (no
reachable state has one there; log entry 6). -/
def evalCommand (op : Opcode) (s : State) : Option EvalResult :=
  let cal := calLookup s.cal s.curS
  if decodesFrame op then
    let f := decodeDurations s.dur s.durCount
    some (levelOf (some f) (validate f) cal)
  else if op == opValidate then
    some (levelOf none (validate (.bytes s.frame s.frameCount)) cal)
  else if op == opLevel then
    some (levelOf none (.segs s.segments) cal)
  else none

/-- SEG[j] ← seg[j] for j < n, the elements above unchanged (47_commit_and_counters.md R351). -/
def overlay (seg : List Byte) (old : Vector Byte 10) : Vector Byte 10 :=
  Vector.ofFn fun j : Fin 10 => seg[j.val]?.getD old[j]

/-- SEG[j] ← seg[j] for j < n, SEG_COUNT ← n (47_commit_and_counters.md R351). -/
def writeSegments (seg : List Byte) (t : State) : State :=
  { t with seg := overlay seg t.seg, segCount := BitVec.ofNat 4 seg.length }

/-- `commitSegs(op, segs)` (47_commit_and_counters.md R351). -/
def commitSegs (op : Opcode) (seg : List Byte) (t : State) : State :=
  if commitsSegments op then writeSegments seg t else t

/-- LEVEL_NUM ← num, LEVEL_DEN ← den (47_commit_and_counters.md R350). -/
def writeLevel (num den : Nat) (t : State) : State :=
  { t with levelNum := BitVec.ofNat 32 num, levelDen := BitVec.ofNat 32 den }

/-- The result registers of a level: OK with the exact pair (47_commit_and_counters.md R350), or
LEVEL_FAULT with the sentinel and no counter (R352, R354). -/
def commitLevel (lv : LevelResult) (t : State) : State :=
  match lv with
  | .pct num den => writeLevel num den (setResult .ok t)
  | .levelFault => levelSentinel (setResult .levelFault t)

/-- `commit(E)` (47_commit_and_counters.md R350 to R353). -/
def commit (op : Opcode) (e : EvalResult) (t : State) : State :=
  match e with
  | .fail code frameOut => raiseFailure op code frameOut t
  | .done frameOut seg lv => commitLevel lv (commitSegs op seg (commitFrame frameOut t))

/-- The EVAL step: evaluate the pre-edge state, commit, end (41_commands.md R194). -/
def evalStep (s t : State) : State :=
  match evalCommand s.curOp s with
  | some e => (commit s.curOp e t).endCommand
  | none => t.endCommand

end Sys2Proof.Machine
end

