-- ==== Sys2Proof/Machine/Commands.lean ====
section
/-! DEFINITION. The meaning of each command: what the CMD write does at its edge (41_commands.md R180 to
R189). It reads and writes the pre-edge state; what the units do at that same edge, and what they do at
every later edge until the command ends, is `advance` (Machine/Edge.lean), because the block takes one
step per CLK edge (00_scope.md R6, R7) and a command may run for ever (R8). -/

namespace Sys2Proof.Machine

/-- NOP: nothing, whether BUSY is 0 or 1 (41_commands.md R182). -/
def execNop (s : State) : Host.Outcome State Fault Refusal := .next s

/-- READ s: start, and begin select(s) (41_commands.md R181, R183). -/
def execRead (sensor : Sensor) (s : State) : Host.Outcome State Fault Refusal :=
  .next (whenIdle (fun s => beginSelect sensor s (startCommand opRead sensor s)) s)

/-- SELECT s: start, and begin select(s) (41_commands.md R181, R184). -/
def execSelect (sensor : Sensor) (s : State) : Host.Outcome State Fault Refusal :=
  .next (whenIdle (fun s => beginSelect sensor s (startCommand opSelect sensor s)) s)

/-- CAPTURE s: start, and begin capture() (41_commands.md R181, R185). -/
def execCapture (sensor : Sensor) (s : State) : Host.Outcome State Fault Refusal :=
  .next (whenIdle (fun s => beginCapture s (startCommand opCapture sensor s)) s)

/-- DECODE s: start, with the evaluation at the next edge (41_commands.md R181, R186). -/
def execDecode (sensor : Sensor) (s : State) : Host.Outcome State Fault Refusal :=
  .next (whenIdle (fun s => beginEval (startCommand opDecode sensor s)) s)

/-- VALIDATE s: start, with the evaluation at the next edge (41_commands.md R181, R187). -/
def execValidate (sensor : Sensor) (s : State) : Host.Outcome State Fault Refusal :=
  .next (whenIdle (fun s => beginEval (startCommand opValidate sensor s)) s)

/-- LEVEL s: start, with the evaluation at the next edge (41_commands.md R181, R188). -/
def execLevel (sensor : Sensor) (s : State) : Host.Outcome State Fault Refusal :=
  .next (whenIdle (fun s => beginEval (startCommand opLevel sensor s)) s)

/-- The three error counters ← 0 (41_commands.md R189). -/
def clearCounters (s : State) : State := { s with cntNoresp := 0, cntPreamble := 0, cntChecksum := 0 }

/-- CLRCNT: clear the counters while BUSY = 0, ignored with IGN while BUSY = 1 (41_commands.md R180, R189). -/
def execClrcnt (s : State) : Host.Outcome State Fault Refusal := .next (whenIdle clearCounters s)

end Sys2Proof.Machine
end

