-- ==== Sys2Proof/Machine/Dispatch.lean ====
section
/-! DEFINITION. The dispatch: one arm per command, each one call of its meaning. -/

namespace Sys2Proof.Machine

def exec (i : Instr) (s : State) : Host.Outcome State Fault Refusal :=
  match i with
  | .nop => Sys2Proof.Machine.execNop s
  | .read sensor => Sys2Proof.Machine.execRead sensor s
  | .select sensor => Sys2Proof.Machine.execSelect sensor s
  | .capture sensor => Sys2Proof.Machine.execCapture sensor s
  | .decode sensor => Sys2Proof.Machine.execDecode sensor s
  | .validate sensor => Sys2Proof.Machine.execValidate sensor s
  | .level sensor => Sys2Proof.Machine.execLevel sensor s
  | .clrcnt => Sys2Proof.Machine.execClrcnt s

end Sys2Proof.Machine
end

