-- ==== Sys2Proof/Machine/Edge.lean ====
section
/-! DEFINITION. One CLK edge around the host's port operation (00_scope.md R7): every rule reads the
pre-edge state `s`; the port operation's writes come first, then the units', so that a DONE set by the
block wins over a W1C of the same edge (60_exceptions.md R377). -/

namespace Sys2Proof.Machine

/-- The units' step for the pre-edge PHASE: the next-phase function and its writes (41_commands.md R191). -/
def phaseStep (s t : State) : State :=
  match s.phase with
  | .idle => t
  | .selOff => selOffStep s t
  | .selOn => selOnStep s t
  | .capHigh => capHighStep s t
  | .capLow => capLowStep s t
  | .eval => evalStep s t

/-- Everything of an edge but the port operation, whose writes stand in `t`: the units, the timebase and
synchroniser, and the outside agents' moving on. -/
def advance (s t : State) : State := consume s (timebase (State.rxPin s) s (phaseStep s t))

/-- The command the port carries: a write to CMD of a word that names one (41_commands.md R180). -/
def State.command (s : State) : Option Instr :=
  match s.busOp with
  | .write a d =>
    if regAt a = .cmd then
      (match decode d with
      | .ok i => some i
      | .error _ => none)
    else none
  | .read _ => none
  | .none => none

/-- The writes of a port operation that is no command: nothing for NONE and READ (40_host_access.md R162);
IGN for a reserved OP, whatever BUSY is (41_commands.md R190); else the register write. (A word that names a
command is `State.command`'s, and writes nothing here.) -/
def portEffect (s : State) : State :=
  match s.busOp with
  | .none => s
  | .read _ => s
  | .write a d =>
    if regAt a = .cmd then
      (match decode d with
      | .ok _ => s
      | .error _ => s.setIgn)
    else hostWrite (regAt a) d s

/-- The edge after the port operation answered `o`: a stop is passed on, a next state goes through
`advance`. -/
def finishEdge (s : State) (o : Host.Outcome State Fault Refusal) : Host.Outcome State Fault Refusal :=
  match o with
  | .next t => .next (advance s t)
  | .fault f => .fault f
  | .refused r => .refused r

end Sys2Proof.Machine
end

