-- ==== Sys2Proof/Machine/Step.lean ====
section
/-! DEFINITION. One step: one rising edge of CLK (00_scope.md R6, R7). -/

namespace Sys2Proof.Machine

/-- S(k) to S(k+1). RST = 1 overrides every other event (70_reset_and_hazards.md R410); otherwise the
port's command or other operation takes effect, and then the rest of the edge. -/
def step (s : State) : Host.Outcome State Fault Refusal :=
  if s.hostPins.rst then .next (resetEdge s)
  else
    match s.command with
    | some i => finishEdge s (exec i s)
    | none => finishEdge s (.next (portEffect s))

/-- `s` with the host writing the command word `w` to CMD at the coming edge, RST = 0: the block fetches
nothing, and this write is how a command reaches it (10_state.md R61, 41_commands.md R180). -/
def State.withFetchWord (s : State) (nbits w : Nat) : State := s.drive (cmdWritePins (tableWord nbits w))

end Sys2Proof.Machine
end

