-- ==== Sys2Proof/WellFormed.lean ====
section
/-! DEFINITION. Well-formedness of instructions and of command words.

`Instr` carries no ill-formed term: SENSOR has no reserved value, every 0..255 is legal
(30_encoding.md R134), and the operand's type holds exactly those values. So `Instr.wf` refuses nothing.
What CAN be ill formed is a word: `wordNames` checks that a word names a command at all (R133), and
`wordCanonical` that it is, besides, the word a host program's assembler writes for it (R136). -/

namespace Sys2Proof

/-- A well-formed instruction: every one is (30_encoding.md R134). -/
def Instr.wf : Instr → Bool
  | .nop => true
  | .read _ => true
  | .select _ => true
  | .capture _ => true
  | .decode _ => true
  | .validate _ => true
  | .level _ => true
  | .clrcnt => true

/-- The word's OP is not one of the reserved 0x8..0xF (30_encoding.md R133). -/
def wordNames (d : Word) : Bool := (opField d).toNat < 8

/-- The bits a decoder ignores are 0: CMD[7:4] and CMD[31:16] (30_encoding.md R130). -/
def wordIgnoredZero (d : Word) : Bool := d.extractLsb' 4 4 == 0 && d.extractLsb' 16 16 == 0

/-- SENSOR is 0 where the command ignores it: NOP and CLRCNT (30_encoding.md R131, R136). -/
def wordSensorZero (d : Word) : Bool :=
  !(opField d == opNop || opField d == opClrcnt) || sensorField d == 0

/-- The word is the expansion of a pseudo-instruction of 30_encoding.md R136. -/
def wordCanonical (d : Word) : Bool := wordNames d && wordIgnoredZero d && wordSensorZero d

end Sys2Proof
end

