-- ==== Sys2Proof/Safety.lean ====
section
/-! DEFINITION. What counts as a sound state and a safe run, in the terms the statements use. -/

namespace Sys2Proof.Machine

/-- BUSY = 1 exactly when PHASE ≠ IDLE (10_state.md R54). -/
abbrev State.busyMatchesPhase (s : State) : Prop := s.busy = true ↔ s.phase ≠ .idle

/-- DONE is 0 while a command runs: the start clears it and only the end sets it (41_commands.md R181,
R196). -/
abbrev State.doneOnlyWhenIdle (s : State) : Prop := s.busy = true → s.done = false

/-- PRE is in 0..TICKS_PER_US−1 (10_state.md R63). -/
abbrev State.prescalerInRange (s : State) : Prop := s.pre < s.params.ticksPerUs

/-- SEG_COUNT is in 0..10 (10_state.md R44). -/
abbrev State.segCountLegal (s : State) : Prop := s.segCount.toNat ≤ 10

/-- LEVEL_DEN is never 0 (10_state.md R38). -/
abbrev State.levelDenNonzero (s : State) : Prop := s.levelDen ≠ 0

/-- While addressing, SEL_REMAIN is in 1..256 and the command is READ or SELECT (10_state.md R66,
41_commands.md R191). -/
abbrev State.selectSound (s : State) : Prop :=
  s.phase = .selOff ∨ s.phase = .selOn →
    (1 ≤ s.selRemain.toNat ∧ s.selRemain.toNat ≤ 256) ∧ (s.curOp = opRead ∨ s.curOp = opSelect)

/-- While capturing, DUR_COUNT is at most 95 and the command is READ or CAPTURE (43_pulse_capture.md R245,
41_commands.md R191). -/
abbrev State.captureSound (s : State) : Prop :=
  s.phase = .capHigh ∨ s.phase = .capLow →
    s.durCount.toNat ≤ 95 ∧ (s.curOp = opRead ∨ s.curOp = opCapture)

/-- In EVAL the command is one of the five that reach it (41_commands.md R191, R195). -/
abbrev State.evalSound (s : State) : Prop :=
  s.phase = .eval →
    s.curOp = opRead ∨ s.curOp = opCapture ∨ s.curOp = opDecode ∨ s.curOp = opValidate ∨ s.curOp = opLevel

/-- The invariant of every reachable state. -/
abbrev State.inv (s : State) : Prop :=
  s.busyMatchesPhase ∧ s.doneOnlyWhenIdle ∧ s.prescalerInRange ∧ s.segCountLegal ∧ s.levelDenNonzero ∧
    s.selectSound ∧ s.captureSound ∧ s.evalSound

/-- The next state an outcome answers, if it answers one. -/
def nextOf (o : Host.Outcome State Fault Refusal) : Option State :=
  match o with
  | .next s => some s
  | .fault _ => none
  | .refused _ => none

/-- A safe step: it answers a next state (60_exceptions.md R372). -/
abbrev State.safe (s : State) : Prop := (nextOf (step s)).isSome = true

/-! ## Runs and the host's requests -/

/-- The state `n` steps later, if every one of them answers a next state. -/
def runFor : Nat → State → Option State
  | 0, s => some s
  | n + 1, s =>
    match step s with
    | .next t => runFor n t
    | .fault _ => none
    | .refused _ => none

/-- `s` with the host carrying out `op` at the coming edge, RST = 0. -/
abbrev State.asks (s : State) (op : BusOp) : State := s.drive (pinsOf op)

/-- The host leaves RST at 0 for the next `n` edges, and its script says so. -/
abbrev State.noResetFor (s : State) (n : Nat) : Prop :=
  n ≤ s.host.length ∧ ∀ p ∈ s.host.take n, p.rst = false

/-- The host's next edge writes the word of `i` to CMD, and `rest` is its script after that. -/
abbrev State.writesCommand (s : State) (i : Instr) (rest : List HostPins) : Prop :=
  s.host = cmdWritePins (encode i) :: rest

/-- The port carries one of the three requests that are ignored and flagged (60_exceptions.md R371): a
reserved OP, a command other than NOP while BUSY = 1, a RW-idle register write while BUSY = 1. -/
def State.ignoredRequest (s : State) : Prop :=
  ∃ a d, s.busOp = .write a d ∧
    ((regAt a = .cmd ∧ 8 ≤ (opField d).toNat) ∨
     (regAt a = .cmd ∧ 1 ≤ (opField d).toNat ∧ (opField d).toNat ≤ 7 ∧ s.busy = true) ∨
     ((regAt a).access = .rwIdle ∧ s.busy = true))

/-- The port writes STATUS with IGN's bit 2 set (40_host_access.md R166). -/
def State.clearsIgn (s : State) : Prop :=
  ∃ a d, s.busOp = .write a d ∧ regAt a = .status ∧ d.getLsbD 2 = true

/-- A host's read taken off the port: BUS_EN = 0 instead (40_host_access.md R160). -/
def withoutRead (p : HostPins) : HostPins :=
  if p.busEn && !p.busWe then { p with busEn := false } else p

/-! ## Frames: what an edge changes whatever happens at it -/

/-- `u` with the fields of `t` that every edge moves on: the synchroniser, the timebase and the outside
agents. `t = u.withTimeOf t` says that `t` is `u` but for them. -/
def State.withTimeOf (u t : State) : State :=
  { u with
    sync1 := t.sync1, sync2 := t.sync2, pre := t.pre, us := t.us
    host := t.host, rxWave := t.rxWave, edge := t.edge }

/-- `u` with DONE and IGN of `t`, the two flags a host may clear or set while a command runs. -/
def State.withFlagsOf (u t : State) : State := { u with done := t.done, ign := t.ign }

/-- `u` with the configuration registers of `t`: CTRL, TIMEOUT, SEL_OFF, SEL_ON and CAL. -/
def State.withConfigOf (u t : State) : State :=
  { u with
    toEn := t.toEn, ie := t.ie, tx := t.tx, timeoutUs := t.timeoutUs, selOffUs := t.selOffUs
    selOnUs := t.selOnUs, cal := t.cal }

/-- `u` with the protocol data of `t`: DUR, DUR_COUNT, FRAME, FRAME_COUNT, SEG and SEG_COUNT. -/
def State.withDataOf (u t : State) : State :=
  { u with
    dur := t.dur, durCount := t.durCount, frame := t.frame, frameCount := t.frameCount
    seg := t.seg, segCount := t.segCount }

/-- The value of the counter that counts `c` (47_commit_and_counters.md R353). -/
def State.failCount (c : FailCode) (s : State) : Nat :=
  match c with
  | .noResponse => s.cntNoresp.toNat
  | .preambleInvalid => s.cntPreamble.toNat
  | .checksumMismatch => s.cntChecksum.toNat

/-- RESULT, LEVEL_NUM and LEVEL_DEN of `t` are those of the level `lv` (47_commit_and_counters.md R350,
R352): the exact pair, or the sentinel −1/1. -/
def LevelFacts (t : State) (lv : LevelResult) : Prop :=
  match lv with
  | .pct num den => t.result = .ok ∧ t.levelNum.toNat = num ∧ t.levelDen.toNat = den
  | .levelFault => t.result = .levelFault ∧ t.levelNum = 0xFFFFFFFF ∧ t.levelDen = 1

/-- What a verdict and the level after it leave in the result registers, SEG and the counters
(47_commit_and_counters.md R350 to R354), from `s` before the edge to `t` after it. -/
def CommitFacts (s t : State) (v : Verdict) (cal : Option (BitVec 16)) : Prop :=
  match v with
  | .fail code =>
    t.result = code.result ∧ t.levelNum = 0xFFFFFFFF ∧ t.levelDen = 1 ∧
    t.segCount = 0 ∧ t.seg = s.seg ∧
    ∀ c, t.failCount c = if c = code then min (s.failCount c + 1) (2 ^ 32 - 1) else s.failCount c
  | .segs l =>
    (∀ c, t.failCount c = s.failCount c) ∧
    t.segCount.toNat = l.length ∧ (∀ j : Fin 10, t.seg[j] = (l[j.val]?).getD s.seg[j]) ∧
    LevelFacts t (level l cal)

/-- What the decoder's output leaves in FRAME and FRAME_COUNT (47_commit_and_counters.md R351). -/
def FrameFacts (s t : State) (f : Frame) : Prop :=
  match f with
  | .bytes b _ => t.frame = b ∧ t.frameCount = 12
  | .empty => t.frame = s.frame ∧ t.frameCount = 0

/-- `s` with the result registers, FRAME, SEG and their counts of `t`: what a commit may write
(47_commit_and_counters.md R356). -/
def State.withResultsOf (s t : State) : State :=
  { s with
    result := t.result, levelNum := t.levelNum, levelDen := t.levelDen
    cntNoresp := t.cntNoresp, cntPreamble := t.cntPreamble, cntChecksum := t.cntChecksum
    frame := t.frame, frameCount := t.frameCount, seg := t.seg, segCount := t.segCount }

/-- The complete next-phase function, row by row (41_commands.md R191). -/
def State.tablePhase (s : State) : Phase :=
  match s.phase with
  | .idle =>
    match s.command with
    | some (.read _) => .selOff
    | some (.select _) => .selOff
    | some (.capture _) => .capHigh
    | some (.decode _) => .eval
    | some (.validate _) => .eval
    | some (.level _) => .eval
    | some .nop => .idle
    | some .clrcnt => .idle
    | none => .idle
  | .selOff => if s.selOffUs.toNat ≤ (s.us - s.tStart).toNat then .selOn else .selOff
  | .selOn =>
    if s.selOnUs.toNat ≤ (s.us - s.tStart).toNat then
      if 1 < s.selRemain.toNat then .selOff
      else if s.curOp = opRead then .capHigh
      else .idle
    else .selOn
  | .capHigh =>
    if s.sync2 = false then .capLow
    else if s.toEn = true ∧ s.timeoutUs.toNat ≤ (s.us - s.tStart).toNat then .eval
    else .capHigh
  | .capLow =>
    if s.sync2 = true then (if s.durCount.toNat + 1 < 96 then .capHigh else .eval)
    else if s.toEn = true ∧ s.timeoutUs.toNat ≤ (s.us - s.tFall).toNat then .eval
    else .capLow
  | .eval => .idle

/-- Every value of the table of 70_reset_and_hazards.md R411. -/
def State.atReset (s : State) : Prop :=
  s.toEn = true ∧ s.ie = false ∧ s.tx = false ∧ s.busy = false ∧ s.done = false ∧ s.ign = false ∧
  s.result.code = 0 ∧ s.phase.code = 0 ∧ s.sync1 = true ∧ s.sync2 = true ∧ s.timeoutUs = 0x2710 ∧
  s.selOffUs = s.params.selOffRst ∧ s.selOnUs = s.params.selOnRst ∧ s.levelNum = 0xFFFFFFFF ∧
  s.levelDen = 1 ∧ s.cntNoresp = 0 ∧ s.cntPreamble = 0 ∧ s.cntChecksum = 0 ∧ s.durCount = 0 ∧
  s.frameCount = 0 ∧ s.segCount = 0 ∧ s.us = 0 ∧ s.pre = 0 ∧
  (∀ i : Fin 8, s.cal[i].valid = false ∧ s.cal[i].ref = 0) ∧ (∀ i : Fin 12, s.frame[i] = 0) ∧
  (∀ i : Fin 10, s.seg[i] = 0) ∧ (∀ i : Fin 96, s.dur[i] = 0) ∧ s.tStart = 0 ∧ s.tFall = 0 ∧
  s.selRemain = 0 ∧ s.curOp = 0 ∧ s.curS = 0 ∧ s.irq = false ∧ s.txPin = false ∧
  s.ctrlWord = 0x00000001 ∧ s.statusWord = 0x00010000

/-- The word a read returns after `d` was stored to a RW-idle register: its fields' bits of `d`, the
reserved bits 0, SEG_COUNT made legal (10_state.md R31 to R49, 40_host_access.md R168). -/
def Reg.storedWord (r : Reg) (d : Word) : Word :=
  match r with
  | .ctrl => d &&& 0x00000007
  | .timeout => d &&& 0x0000FFFF
  | .selOff => d &&& 0x0000FFFF
  | .selOn => d &&& 0x0000FFFF
  | .durCount => d &&& 0x0000007F
  | .frameCount => d &&& 0x0000000F
  | .segCount => if 10 < (d &&& 0x0000000F).toNat then 10 else d &&& 0x0000000F
  | .cal _ => d &&& 0x8000FFFF
  | .frame _ => d &&& 0x000000FF
  | .seg _ => d &&& 0x000000FF
  | .dur _ => d &&& 0x0000FFFF
  | .cmd => 0
  | .status => 0
  | .levelNum => 0
  | .levelDen => 0
  | .cntNoresp => 0
  | .cntPreamble => 0
  | .cntChecksum => 0
  | .usNow => 0
  | .unmapped => 0

/-- The frame a sender builds from a segment array: preamble nibble 0x9 with low nibble `lo`, the
checksum over every segment, the segments, and 0xFF in the slots above (45_frame_validator.md R298). -/
def framed (lo : BitVec 4) (seg : List Byte) : Vector Byte 12 :=
  Vector.ofFn fun i : Fin 12 =>
    if i.val = 0 then (0x9 : BitVec 4) ++ lo
    else if i.val = 1 then BitVec.ofInt 8 (((seg.map BitVec.toNat).sum : Int) - 2)
    else seg.getD (i.val - 2) 0xFF

end Sys2Proof.Machine
end

