-- ==== Sys2Proof/Certificates/Slice0/Obligations.lean ====
section
/-! DEFINITION. The statements for the provers. `step` is one CLK edge; `runFor n` is n of them;
`t = (u).withTimeOf t` says that `t` is `u` but for what every edge moves on (the synchroniser, the
timebase, the outside agents). The block has no memory besides its registers (20_memory.md R100), so an
equation of states is a whole frame. -/

open Sys2Proof Sys2Proof.Machine

/-! ## Encoding -/

/-- Decoding the word of a command gives the command (30_encoding.md R130 to R132, R136). -/
def Obligations.DecodeOfEncodeIsTheCommand : Prop :=
  ∀ i : Instr, i.wf = true → decode (encode i) = .ok i

/-- CMD[7:4] and CMD[31:16] change nothing, nor does SENSOR for NOP and CLRCNT (30_encoding.md R130, R133;
41_commands.md R182, R189). -/
def Obligations.IgnoredBitsDoNotMatter : Prop :=
  (∀ (hi : BitVec 16) (n : Sensor) (mid : BitVec 4) (op : Opcode),
    decode (hi ++ n ++ mid ++ op) = decode (commandWord op n)) ∧
  (∀ (op : Opcode) (n n' : Sensor), op = opNop ∨ op = opClrcnt →
    decode (commandWord op n) = decode (commandWord op n'))

/-- The words of the pseudo-instructions are exactly the canonical words, each the word of the command it
decodes to (30_encoding.md R136). -/
def Obligations.CanonicalWordsAreTheEncodings : Prop :=
  (∀ d : Word, wordCanonical d = true ↔ ∃ i, encode i = d) ∧
  (∀ (d : Word) (i : Instr), wordCanonical d = true → decode d = .ok i → encode i = d)

/-- Exactly the words with OP 0x8..0xF name no command (30_encoding.md R132, R133). -/
def Obligations.ReservedOpsNameNoCommand : Prop :=
  ∀ d : Word, (8 ≤ (opField d).toNat ↔ decode d = .error (.reservedOp (opField d))) ∧
    ((opField d).toNat < 8 ↔ ∃ i, decode d = .ok i)

/-- One word of each command, written out from the patterns of 41_commands.md R182 to R189. -/
def Obligations.TableWordsDecode : Prop :=
  decodeTableWord 32 0b11111111111111110000000011110000 = some .nop ∧
  decodeTableWord 32 0b00000000000000000000000100000001 = some (.read 1) ∧
  decodeTableWord 32 0b00000000000000000000001000000010 = some (.select 2) ∧
  decodeTableWord 32 0b00000000000000001111111100000011 = some (.capture 255) ∧
  decodeTableWord 32 0b00000000000000000000010100000100 = some (.decode 5) ∧
  decodeTableWord 32 0b00000000000000000000000000000101 = some (.validate 0) ∧
  decodeTableWord 32 0b00000000000000000000100100000110 = some (.level 9) ∧
  decodeTableWord 32 0b00000000000000000000000000000111 = some .clrcnt ∧
  decodeTableWord 32 0b00000000000000000000000000001000 = none

/-! ## The step -/

/-- A step with a command word on the port runs the decoded command, and around it the rest of the edge:
the units, timebase and synchroniser of the pre-edge state (00_scope.md R7, 41_commands.md R180). -/
def Obligations.StepRunsTheDecodedCommand : Prop :=
  (∀ (s : State) (a : Addr) (d : Word) (i : Instr),
    s.hostPins.rst = false → s.busOp = .write a d → regAt a = .cmd → decode d = .ok i →
    step s = match exec i s with
      | .next t => .next (advance s t)
      | .fault f => .fault f
      | .refused r => .refused r) ∧
  (∀ (s : State) (nbits w : Nat) (i : Instr), decodeTableWord nbits w = some i →
    step (s.withFetchWord nbits w) =
      match exec i (s.withFetchWord nbits w) with
      | .next t => .next (advance (s.withFetchWord nbits w) t)
      | .fault f => .fault f
      | .refused r => .refused r)

/-- No trap, no fault: every step of every state answers a next state (60_exceptions.md R372). -/
def Obligations.EveryStepAnswersANextState : Prop := ∀ s : State, ∃ t, step s = .next t

/-! ## The commands at their edge -/

/-- NOP: every word with OP 0 is a NOP, and it changes nothing, whether BUSY is 0 or 1 (41_commands.md
R182). -/
def Obligations.NopChangesNothing : Prop :=
  (∀ d : Word, opField d = 0 → decode d = .ok .nop) ∧ (∀ s : State, exec .nop s = .next s)

/-- READ s and SELECT s start: BUSY, CUR_OP and CUR_S, and the first pulse's off phase
(41_commands.md R181, 42_bus_addressor.md R221). -/
def Obligations.AddressingCommandsStart : Prop :=
  ∀ (s : State) (n : Sensor), s.busy = false →
    exec (.read n) s = .next { s with
      busy := true, done := false, curOp := 0x1, curS := n
      selRemain := n.zeroExtend 9 + 1, tx := false, tStart := s.us, phase := .selOff } ∧
    exec (.select n) s = .next { s with
      busy := true, done := false, curOp := 0x2, curS := n
      selRemain := n.zeroExtend 9 + 1, tx := false, tStart := s.us, phase := .selOff }

/-- CAPTURE s starts: BUSY, CUR_OP and CUR_S, DUR_COUNT ← 0, and the first wait (41_commands.md R181,
43_pulse_capture.md R243). TX and the DUR elements are unchanged (R255). -/
def Obligations.CaptureCommandStarts : Prop :=
  ∀ (s : State) (n : Sensor), s.busy = false →
    exec (.capture n) s = .next { s with
      busy := true, done := false, curOp := 0x3, curS := n
      durCount := 0, tStart := s.us, phase := .capHigh }

/-- DECODE s, VALIDATE s and LEVEL s start: BUSY, CUR_OP, CUR_S and PHASE = EVAL (41_commands.md R181). -/
def Obligations.EvaluationCommandsStart : Prop :=
  ∀ (s : State) (n : Sensor), s.busy = false →
    exec (.decode n) s = .next { s with
      busy := true, done := false, curOp := 0x4, curS := n, phase := .eval } ∧
    exec (.validate n) s = .next { s with
      busy := true, done := false, curOp := 0x5, curS := n, phase := .eval } ∧
    exec (.level n) s = .next { s with
      busy := true, done := false, curOp := 0x6, curS := n, phase := .eval }

/-- CLRCNT: every word with OP 7; while BUSY = 0 it clears the three counters and nothing else, while
BUSY = 1 it is ignored with IGN (41_commands.md R189). -/
def Obligations.ClrcntClearsTheCounters : Prop :=
  (∀ d : Word, opField d = 7 → decode d = .ok .clrcnt) ∧
  (∀ s : State, s.busy = false →
    exec .clrcnt s = .next { s with cntNoresp := 0, cntPreamble := 0, cntChecksum := 0 }) ∧
  (∀ s : State, s.busy = true → exec .clrcnt s = .next { s with ign := true })

/-- IGN: a reserved OP, a command while BUSY = 1 and a RW-idle write while BUSY = 1 change IGN and nothing
else of what the edge does without them; nothing else sets IGN; it stays set until a W1C write or reset
(60_exceptions.md R371). -/
def Obligations.IgnoredRequestsSetIgnAndNothingElse : Prop :=
  (∀ s : State, s.hostPins.rst = false → s.ignoredRequest →
    ∃ t, step (s.asks .none) = .next t ∧ step s = .next { t with ign := true }) ∧
  (∀ s t : State, step s = .next t →
    (t.ign = true ↔ s.hostPins.rst = false ∧ (s.ignoredRequest ∨ (s.ign = true ∧ ¬ s.clearsIgn))))

/-! ## The commands to their end -/

/-- LEVEL s: two edges. RESULT, LEVEL_NUM and LEVEL_DEN are those of the level of SEG[0..SEG_COUNT−1], and
nothing else changes but BUSY, DONE, CUR_OP, CUR_S and what every edge moves (41_commands.md R188). The
calibration it uses is Present(REF) exactly for s < 8 with CAL[s].VALID = 1 (46_level_decoder.md R321). -/
def Obligations.LevelCommandRuns : Prop :=
  (∀ (cal : Vector CalEntry 8) (n : Sensor) (ref : BitVec 16),
    calLookup cal n = some ref ↔ ∃ i : Fin 8, n.toNat = i.val ∧ cal[i].valid = true ∧ cal[i].ref = ref) ∧
  ∀ (s : State) (n : Sensor) (p : HostPins) (rest : List HostPins),
    s.busy = false → s.phase = .idle → s.writesCommand (.level n) (p :: rest) → p.rst = false →
    ∃ t, runFor 2 s = some t ∧
      t = (({ s with
        busy := false, done := true, ign := t.ign, curOp := 0x6, curS := n
        result := t.result, levelNum := t.levelNum, levelDen := t.levelDen } : State)).withTimeOf t ∧
      LevelFacts t (level (s.seg.toList.take s.segCount.toNat) (calLookup s.cal n))

/-- VALIDATE s: two edges. The verdict on FRAME[0..11] with FRAME_COUNT, and its level, are committed; FRAME
and FRAME_COUNT are not written (41_commands.md R187, 47_commit_and_counters.md R350 to R353). -/
def Obligations.ValidateCommandRuns : Prop :=
  ∀ (s : State) (n : Sensor) (p : HostPins) (rest : List HostPins),
    s.busy = false → s.phase = .idle → s.writesCommand (.validate n) (p :: rest) → p.rst = false →
    ∃ t, runFor 2 s = some t ∧
      t = ({ s.withResultsOf t with
        busy := false, done := true, ign := t.ign, curOp := 0x5, curS := n }).withTimeOf t ∧
      t.frame = s.frame ∧ t.frameCount = s.frameCount ∧
      CommitFacts s t (validate (.bytes s.frame s.frameCount)) (calLookup s.cal n)

/-- DECODE s: two edges. The decoded frame is committed even when validation fails, then the verdict and the
level; DUR and DUR_COUNT are not written (41_commands.md R186, 47_commit_and_counters.md R350 to R353). -/
def Obligations.DecodeCommandRuns : Prop :=
  ∀ (s : State) (n : Sensor) (p : HostPins) (rest : List HostPins),
    s.busy = false → s.phase = .idle → s.writesCommand (.decode n) (p :: rest) → p.rst = false →
    ∃ t, runFor 2 s = some t ∧
      t = ({ s.withResultsOf t with
        busy := false, done := true, ign := t.ign, curOp := 0x4, curS := n }).withTimeOf t ∧
      FrameFacts s t (decodeDurations s.dur s.durCount) ∧
      CommitFacts s t (validate (decodeDurations s.dur s.durCount)) (calLookup s.cal n)

/-- The EVAL edge of READ and CAPTURE (and of DECODE): the command ends with the decoded frame, the
verdict and the level committed, all at this one edge (41_commands.md R183, R185, R194 to R196). -/
def Obligations.CaptureCommandsEndInTheEvaluation : Prop :=
  ∀ s : State, s.busy = true → s.phase = .eval → s.hostPins.rst = false →
    (s.curOp = opRead ∨ s.curOp = opCapture ∨ s.curOp = opDecode) →
    ∃ t, step s = .next t ∧
      t = ({ s.withResultsOf t with
        phase := .idle, busy := false, done := true, ign := t.ign }).withTimeOf t ∧
      FrameFacts s t (decodeDurations s.dur s.durCount) ∧
      CommitFacts s t (validate (decodeDurations s.dur s.durCount)) (calLookup s.cal s.curS)

/-! ## The units, edge by edge -/

/-- The complete next-phase function, and reset, which forces IDLE (41_commands.md R191). -/
def Obligations.PhaseFollowsTheTable : Prop :=
  ∀ s : State, s.inv → ∃ t, step s = .next t ∧
    t.phase = if s.hostPins.rst = true then .idle else s.tablePhase

/-- The SEL_OFF step (42_bus_addressor.md R222). -/
def Obligations.SelOffEdge : Prop :=
  ∀ s : State, s.busy = true → s.phase = .selOff → s.hostPins.rst = false →
    ∃ t, step s = .next t ∧
      t = ((if s.selOffUs.toNat ≤ (s.us - s.tStart).toNat then
        { s with tx := true, tStart := s.us, phase := .selOn } else s).withFlagsOf t).withTimeOf t

/-- The SEL_ON step: the next pulse, the capture of a READ, or the end of a SELECT
(42_bus_addressor.md R223, 41_commands.md R184). -/
def Obligations.SelOnEdge : Prop :=
  ∀ s : State, s.busy = true → s.phase = .selOn → s.hostPins.rst = false →
    (s.curOp = opRead ∨ s.curOp = opSelect) →
    ∃ t, step s = .next t ∧
      t = ((if s.selOnUs.toNat ≤ (s.us - s.tStart).toNat then
          if 1 < s.selRemain.toNat then
            { s with selRemain := s.selRemain - 1, tx := false, tStart := s.us, phase := .selOff }
          else if s.curOp = opRead then
            { s with selRemain := 0, durCount := 0, tStart := s.us, phase := .capHigh }
          else { s with selRemain := 0, result := .none, phase := .idle, busy := false }
        else s).withFlagsOf t).withTimeOf t ∧
      (t.busy = false → t.done = true)

/-- The CAP_HIGH step: a low level starts a pulse, and wins over the timeout (43_pulse_capture.md R244). -/
def Obligations.CapHighEdge : Prop :=
  ∀ s : State, s.busy = true → s.phase = .capHigh → s.hostPins.rst = false →
    ∃ t, step s = .next t ∧
      t = ((if s.sync2 = false then { s with tFall := s.us, phase := .capLow }
        else if s.toEn = true ∧ s.timeoutUs.toNat ≤ (s.us - s.tStart).toNat then { s with phase := .eval }
        else s).withFlagsOf t).withTimeOf t

/-- The CAP_LOW step: a high level stores the duration, the 96th completes the capture, and the level wins
over the timeout (43_pulse_capture.md R245, R247). -/
def Obligations.CapLowEdge : Prop :=
  ∀ s : State, s.busy = true → s.phase = .capLow → s.durCount.toNat ≤ 95 → s.hostPins.rst = false →
    ∃ t, step s = .next t ∧
      (s.sync2 = true →
        t.dur[s.durCount.toNat]? = some (BitVec.ofNat 16 (min (s.us - s.tFall).toNat 65535)) ∧
        (∀ i : Nat, i ≠ s.durCount.toNat → t.dur[i]? = s.dur[i]?) ∧
        t.durCount.toNat = s.durCount.toNat + 1 ∧
        t = (((if s.durCount.toNat + 1 = 96 then { s with phase := .eval }
            else { s with tStart := s.us, phase := .capHigh }).withFlagsOf t).withTimeOf
              t).withDataOf { s with dur := t.dur, durCount := t.durCount }) ∧
      (s.sync2 = false →
        t = ((if s.toEn = true ∧ s.timeoutUs.toNat ≤ (s.us - s.tFall).toNat then { s with phase := .eval }
          else s).withFlagsOf t).withTimeOf t)

/-- The RX synchroniser: sync1 samples the pin, sync2 = rx_s is the pin two edges earlier
(43_pulse_capture.md R240). -/
def Obligations.SynchroniserDelaysTwoEdges : Prop :=
  ∀ s : State, s.noResetFor 2 →
    ∃ t u, step s = .next t ∧ step t = .next u ∧
      t.sync1 = s.rxPin ∧ t.sync2 = s.sync1 ∧ u.sync2 = s.rxPin

/-- The timebase at every edge, whatever the PHASE (43_pulse_capture.md R241). -/
def Obligations.TimebaseSteps : Prop :=
  ∀ s : State, s.hostPins.rst = false → ∃ t, step s = .next t ∧
    t.pre = (if s.pre = s.params.ticksPerUs - 1 then 0 else s.pre + 1) ∧
    t.us = (if s.pre = s.params.ticksPerUs - 1 then s.us + 1 else s.us)

/-- n edges without a reset move the timebase on by n ticks, mod 2^32 microseconds: no command and no port
operation stops or sets it (43_pulse_capture.md R241). -/
def Obligations.TimebaseCountsEveryEdge : Prop :=
  ∀ (n : Nat) (s t : State), s.prescalerInRange → s.noResetFor n → runFor n s = some t →
    t.pre < s.params.ticksPerUs ∧
    (t.us.toNat * s.params.ticksPerUs + t.pre) % (2 ^ 32 * s.params.ticksPerUs) =
      (s.us.toNat * s.params.ticksPerUs + s.pre + n) % (2 ^ 32 * s.params.ticksPerUs)

/-! ## Timing over many edges -/

/-- A hold of N microseconds begun with PRE = p lasts max(1, N·T − p) edges: the first off hold of a READ or
SELECT, every on hold, and every later off hold (42_bus_addressor.md R224). -/
def Obligations.HoldsLastAsLongAsTheySay : Prop :=
  (∀ (s : State) (n : Sensor) (i : Instr) (rest : List HostPins) (d : Nat),
    s.busy = false → s.phase = .idle → s.prescalerInRange →
    i = .read n ∨ i = .select n → s.writesCommand i rest →
    d = max 1 (s.selOffUs.toNat * s.params.ticksPerUs - s.pre) → s.noResetFor (d + 1) →
    (∃ t, runFor (d + 1) s = some t ∧ t.phase = .selOn ∧ t.tx = true) ∧
    (∀ m u, 1 ≤ m → m ≤ d → runFor m s = some u → u.phase = .selOff ∧ u.tx = false)) ∧
  (∀ (s : State) (d : Nat),
    s.inv → s.phase = .selOff → s.selOffUs.toNat ≤ (s.us - s.tStart).toNat →
    d = max 1 (s.selOnUs.toNat * s.params.ticksPerUs - s.pre) → s.noResetFor (d + 1) →
    (∃ t, runFor (d + 1) s = some t ∧ t.phase ≠ .selOn) ∧
    (∀ m u, 1 ≤ m → m ≤ d → runFor m s = some u → u.phase = .selOn ∧ u.tx = true)) ∧
  (∀ (s : State) (d : Nat),
    s.inv → s.phase = .selOn → s.selOnUs.toNat ≤ (s.us - s.tStart).toNat → 1 < s.selRemain.toNat →
    d = max 1 (s.selOffUs.toNat * s.params.ticksPerUs - s.pre) → s.noResetFor (d + 1) →
    (∃ t, runFor (d + 1) s = some t ∧ t.phase = .selOn ∧ t.tx = true) ∧
    (∀ m u, 1 ≤ m → m ≤ d → runFor m s = some u → u.phase = .selOff ∧ u.tx = false))

/-- SELECT s with TICKS_PER_US = 1 and holds a, b ≥ 1, written at edge k, ends at edge k + (s + 1)(a + b) and
not before, with TX = 1 and RESULT = NONE (42_bus_addressor.md R228, 70_reset_and_hazards.md R427). -/
def Obligations.SelectEndsAtItsEdge : Prop :=
  ∀ (s : State) (n : Sensor) (rest : List HostPins) (len : Nat),
    s.busy = false → s.phase = .idle → s.params.ticksPerUs = 1 → s.pre = 0 →
    1 ≤ s.selOffUs.toNat → 1 ≤ s.selOnUs.toNat → s.writesCommand (.select n) rest →
    len = (n.toNat + 1) * (s.selOffUs.toNat + s.selOnUs.toNat) → s.noResetFor (len + 1) →
    (∃ t, runFor (len + 1) s = some t ∧ t.busy = false ∧ t.phase = .idle ∧ t.done = true ∧ t.tx = true ∧
      t.result = .none ∧ t.levelNum = s.levelNum ∧ t.levelDen = s.levelDen) ∧
    (∀ m u, 1 ≤ m → m ≤ len → runFor m s = some u → u.busy = true)

/-- A low phase of L edges at rx_s, with TICKS_PER_US = 1 and no timeout inside it, is stored as L
microseconds, saturated to 16 bits (43_pulse_capture.md R245, R254). -/
def Obligations.MeasuredWidthIsTheLowPhase : Prop :=
  ∀ (s : State) (len : Nat) (after : List Bool),
    s.busy = true → s.phase = .capHigh → s.durCount.toNat ≤ 95 → s.params.ticksPerUs = 1 → s.pre = 0 →
    1 ≤ len → len < 2 ^ 32 → (s.toEn = false ∨ len ≤ s.timeoutUs.toNat) →
    s.sync2 :: s.sync1 :: s.rxWave = List.replicate len false ++ true :: after →
    s.noResetFor (len + 1) →
    ∃ t, runFor (len + 1) s = some t ∧
      t.dur[s.durCount.toNat]? = some (BitVec.ofNat 16 (min len 65535)) ∧
      (∀ i : Nat, i ≠ s.durCount.toNat → t.dur[i]? = s.dur[i]?) ∧
      t.durCount.toNat = s.durCount.toNat + 1 ∧
      t.phase = (if s.durCount.toNat = 95 then .eval else .capHigh)

/-- With TO_EN = 1 every command ends: from any sound state some later state has BUSY = 0, whatever the
sensor and the host do (00_scope.md R8, 43_pulse_capture.md R251). -/
def Obligations.EveryCommandEndsWithTheTimeout : Prop :=
  ∀ s : State, s.inv → s.toEn = true → ∃ n t, runFor n s = some t ∧ t.busy = false

/-- The bound: a CAPTURE written at edge k ends at the latest at edge
k + 192·max(1, TIMEOUT_US·T) + 1 (43_pulse_capture.md R251, 70_reset_and_hazards.md R427). -/
def Obligations.CaptureEndsWithinItsBound : Prop :=
  ∀ (s : State) (n : Sensor) (rest : List HostPins),
    s.inv → s.busy = false → s.toEn = true → s.writesCommand (.capture n) rest →
    ∃ m t, m ≤ 192 * max 1 (s.timeoutUs.toNat * s.params.ticksPerUs) + 1 ∧
      runFor (m + 1) s = some t ∧ t.busy = false

/-- With TO_EN = 0 a capture wait whose line never changes never ends: it stays in its phase with DUR_COUNT
and TO_EN as they are for as long as the line and RST stay (43_pulse_capture.md R252,
70_reset_and_hazards.md R425). -/
def Obligations.SilentLineHangsWithoutTheTimeout : Prop :=
  ∀ (n : Nat) (s : State) (line : Bool),
    s.busy = true → s.phase = (if line then .capHigh else .capLow) → s.toEn = false →
    s.sync1 = line → s.sync2 = line → n ≤ s.rxWave.length → (∀ b ∈ s.rxWave.take n, b = line) →
    s.noResetFor n →
    ∃ t, runFor n s = some t ∧ t.busy = true ∧ t.phase = s.phase ∧ t.durCount = s.durCount ∧
      t.toEn = false

/-! ## Decode, validate, level -/

/-- The Bit/Byte Decoder: with 96 durations, bit 7 − i of byte j is 1 exactly when DUR[8j + i] > 26; with any
other count the frame is Empty (44_bit_byte_decoder.md R270 to R273). -/
def Obligations.DecodedBitsAreTheThresholds : Prop :=
  (∀ dur : Vector Duration 96, ∃ b, decodeDurations dur 96 = .bytes b 12 ∧
    ∀ (j : Fin 12) (i : Fin 8),
      b[j].getLsbD (7 - i.val) = decide (26 < (dur[8 * j.val + i.val]'(by omega)).toNat)) ∧
  (∀ (dur : Vector Duration 96) (cnt : BitVec 7), cnt ≠ 96 → decodeDurations dur cnt = .empty)

/-- All durations above the threshold give twelve 0xFF bytes, none above it twelve 0x00 bytes, and a count
other than 96 NO_RESPONSE (44_bit_byte_decoder.md R275). -/
def Obligations.UniformDurationsDecodeUniformly : Prop :=
  ∀ dur : Vector Duration 96,
    (∀ cnt : BitVec 7, cnt ≠ 96 → validate (decodeDurations dur cnt) = .fail .noResponse) ∧
    ((∀ i : Fin 96, 26 < dur[i].toNat) → decodeDurations dur 96 = .bytes (Vector.replicate 12 0xFF) 12) ∧
    ((∀ i : Fin 96, dur[i].toNat ≤ 26) → decodeDurations dur 96 = .bytes (Vector.replicate 12 0x00) 12)

/-- base_seg is the largest index in 2..11 whose byte is not 0xFF, or 1 (45_frame_validator.md R293). -/
def Obligations.BaseSegIsTheLastPopulatedSlot : Prop :=
  ∀ b : Vector Byte 12,
    1 ≤ baseSeg b ∧ baseSeg b ≤ 11 ∧
    (∀ i : Fin 12, baseSeg b < i.val → b[i] = 0xFF) ∧
    (∀ i : Fin 12, i.val = baseSeg b → 2 ≤ i.val → b[i] ≠ 0xFF)

/-- The validator's steps in order: length, preamble, checksum over b[2..base_seg], segments with the quirk
(45_frame_validator.md R290 to R297). -/
def Obligations.ValidationStepsInOrder : Prop :=
  validate .empty = .fail .noResponse ∧
  ∀ (b : Vector Byte 12) (cnt : BitVec 4) (cs : Int),
    cs = ((∑ i ∈ Finset.Icc 2 (baseSeg b), (b.toList.getD i 0).toNat : Nat) - 2 : Int) % 256 →
    (cnt ≠ 12 → validate (.bytes b cnt) = .fail .noResponse) ∧
    (cnt = 12 → b[0].toNat / 16 ≠ 9 → validate (.bytes b cnt) = .fail .preambleInvalid) ∧
    (cnt = 12 → b[0].toNat / 16 = 9 → cs ≠ b[1].toNat →
      validate (.bytes b cnt) = .fail .checksumMismatch) ∧
    (cnt = 12 → b[0].toNat / 16 = 9 → cs = b[1].toNat →
      ∃ seg, validate (.bytes b cnt) = .segs seg ∧ seg.length = baseSeg b - 1 ∧
        (∀ j, 1 ≤ j → j < seg.length → seg[j]? = b[2 + j]?) ∧
        (2 ≤ seg.length → b[3] = 0 → seg[0]? = some 0) ∧
        (1 ≤ seg.length → ¬ (2 ≤ seg.length ∧ b[3] = 0) → seg[0]? = b[2]?))

/-- Round trip: a frame built from a segment array whose last byte is not 0xFF and which the quirk does not
change validates to that array, whatever the preamble's low nibble (45_frame_validator.md R298). -/
def Obligations.FramedSegmentsValidateToThemselves : Prop :=
  ∀ (lo : BitVec 4) (seg : List Byte),
    seg.length ≤ 10 → seg.getLast? ≠ some 0xFF → (seg[1]? = some 0 → seg[0]? = some 0) →
    validate (.bytes (framed lo seg) 12) = .segs seg

/-- Corruption: flipping any bit of byte 1 of a valid frame gives CHECKSUM_MISMATCH; any other preamble
nibble gives PREAMBLE_INVALID, whatever the checksum (45_frame_validator.md R292, R298). -/
def Obligations.CorruptedFramesAreDetected : Prop :=
  (∀ (b : Vector Byte 12) (seg : List Byte) (k : Fin 8),
    validate (.bytes b 12) = .segs seg →
    validate (.bytes (b.set 1 (b[1] ^^^ (1#8 <<< k.val))) 12) = .fail .checksumMismatch) ∧
  (∀ (b : Vector Byte 12) (h lo : BitVec 4), h ≠ 9 →
    validate (.bytes (b.set 0 (h ++ lo)) 12) = .fail .preambleInvalid)

/-- A frame whose sender counted k ≥ 1 real 0xFF readings at the end always fails its checksum, because the
trim removes them (45_frame_validator.md R299). -/
def Obligations.RealSentinelReadingsFailTheChecksum : Prop :=
  ∀ (lo : BitVec 4) (seg : List Byte) (k : Nat),
    1 ≤ k → seg.length + k ≤ 10 → seg.getLast? ≠ some 0xFF →
    validate (.bytes (framed lo (seg ++ List.replicate k 0xFF)) 12) = .fail .checksumMismatch

/-- Empty tank, and the calibrated branch (46_level_decoder.md R322, R327, R328). -/
def Obligations.CalibratedLevelIsTheRatio : Prop :=
  (∀ (seg : List Byte) (cal : Option (BitVec 16)), (∀ x ∈ seg, x = 0) → level seg cal = .pct 0 1) ∧
  (∀ (seg : List Byte) (ref : BitVec 16), (∃ x ∈ seg, x ≠ 0) →
    level seg (some ref) =
      if ref = 0 then .levelFault else .pct (100 * (seg.map BitVec.toNat).sum) ref.toNat)

/-- The uncalibrated branch, in indices: ls is the first non-zero segment, k the number of segments after
it, A their sum (46_level_decoder.md R323 to R326). -/
def Obligations.UncalibratedLevelByIndex : Prop :=
  ∀ (seg : List Byte) (ls : Nat) (x : Byte) (n k a : Nat),
    seg[ls]? = some x → x ≠ 0 → (∀ i, i < ls → seg[i]? = some 0) →
    n = seg.length → k = n - 1 - ls → a = ((seg.drop (ls + 1)).map BitVec.toNat).sum →
    level seg none =
      if k = 0 then .pct (100 * x.toNat) (255 * n)
      else if a = 0 then .levelFault
      else if 100 * (a * n) < 100 * k * (x.toNat + a) then .pct 100 1
      else .pct (100 * k * (x.toNat + a)) (a * n)

/-- The ranges: a numerator fits a signed and a denominator an unsigned 32-bit word, no denominator is 0,
and an uncalibrated level is at most 100 % (46_level_decoder.md R326, R330). -/
def Obligations.LevelPairsFitTheirRegisters : Prop :=
  ∀ (seg : List Byte) (cal : Option (BitVec 16)) (num den : Nat),
    seg.length ≤ 10 → level seg cal = .pct num den →
    1 ≤ den ∧ num < 2 ^ 31 ∧ den < 2 ^ 32 ∧
    (cal = none → num ≤ 2295000 ∧ den ≤ 22950 ∧ num ≤ 100 * den) ∧
    (cal ≠ none → num ≤ 255000 ∧ den ≤ 65535)

/-- The uncalibrated pair is the source's formula, clamped: (fractional_fill + k) × (100/n), with
fractional_fill = seg[ls]/avg, avg the mean of the k segments after ls or 255 when k = 0
(46_level_decoder.md R331). -/
def Obligations.UncalibratedLevelIsTheSourceFormula : Prop :=
  ∀ (seg : List Byte) (ls : Nat) (x : Byte) (k num den : Nat) (avg : ℚ),
    seg[ls]? = some x → x ≠ 0 → (∀ i, i < ls → seg[i]? = some 0) → k = seg.length - 1 - ls →
    avg = (if k = 0 then 255 else (((seg.drop (ls + 1)).map BitVec.toNat).sum : ℚ) / k) →
    level seg none = .pct num den →
    (num : ℚ) / den = min 100 ((x.toNat / avg + k) * (100 / seg.length))

/-! ## The register port -/

/-- The address map: every register stands at its offset, a[1:0] are ignored, and the unmapped offsets are
the five ranges of 10_state.md R50 (40_host_access.md R161, 20_memory.md R104). -/
def Obligations.AddressMapIsTheTable : Prop :=
  (∀ (r : Reg) (off : Addr), r.offset = some off → ∀ k : Fin 4, regAt (off + BitVec.ofNat 12 k.val) = r) ∧
  (∀ a : Addr, regAt a = .unmapped ↔
    (0x03C ≤ a.toNat ∧ a.toNat < 0x040) ∨ (0x060 ≤ a.toNat ∧ a.toNat < 0x080) ∨
    (0x0B0 ≤ a.toNat ∧ a.toNat < 0x0C0) ∨ (0x0E8 ≤ a.toNat ∧ a.toNat < 0x100) ∨ 0x280 ≤ a.toNat)

/-- STATUS, bit by bit, with the codes of RESULT and PHASE (10_state.md R33, R53, R54). -/
def Obligations.StatusWordShowsTheFlags : Prop :=
  ∀ s : State,
    (readval .status s).getLsbD 0 = s.busy ∧ (readval .status s).getLsbD 1 = s.done ∧
    (readval .status s).getLsbD 2 = s.ign ∧
    (readval .status s).extractLsb' 4 3 = (match s.result with
      | .none => 0
      | .ok => 1
      | .noResponse => 2
      | .preambleInvalid => 3
      | .checksumMismatch => 4
      | .levelFault => 5) ∧
    (readval .status s).extractLsb' 8 3 = (match s.phase with
      | .idle => 0
      | .selOff => 1
      | .selOn => 2
      | .capHigh => 3
      | .capLow => 4
      | .eval => 5) ∧
    (readval .status s).getLsbD 16 = s.sync2 ∧ (readval .status s).getLsbD 17 = s.tx ∧
    (∀ k, k = 3 ∨ k = 7 ∨ (11 ≤ k ∧ k ≤ 15) ∨ 18 ≤ k → (readval .status s).getLsbD k = false)

/-- A read has no effect: the edge does exactly what it does with no port operation, and BUS_RDATA is the
register's value in the pre-edge state: each field in its bits, every other bit 0, and 0 for CMD and the
unmapped offsets (20_memory.md R106, 40_host_access.md R162). STATUS is `StatusWordShowsTheFlags`. -/
def Obligations.ReadsHaveNoEffect : Prop :=
  (∀ (s : State) (a : Addr),
    step (s.asks (.read a)) = step (s.asks .none) ∧ (s.asks (.read a)).busRdata = readval (regAt a) s) ∧
  ∀ s : State,
    ((readval .ctrl s).getLsbD 0 = s.toEn ∧ (readval .ctrl s).getLsbD 1 = s.ie ∧
      (readval .ctrl s).getLsbD 2 = s.tx ∧ ∀ k, 3 ≤ k → (readval .ctrl s).getLsbD k = false) ∧
    readval .cmd s = 0 ∧ readval .unmapped s = 0 ∧
    (readval .timeout s).toNat = s.timeoutUs.toNat ∧ (readval .selOff s).toNat = s.selOffUs.toNat ∧
    (readval .selOn s).toNat = s.selOnUs.toNat ∧ readval .levelNum s = s.levelNum ∧
    readval .levelDen s = s.levelDen ∧ readval .cntNoresp s = s.cntNoresp ∧
    readval .cntPreamble s = s.cntPreamble ∧ readval .cntChecksum s = s.cntChecksum ∧
    (readval .durCount s).toNat = s.durCount.toNat ∧ (readval .frameCount s).toNat = s.frameCount.toNat ∧
    (readval .segCount s).toNat = s.segCount.toNat ∧ readval .usNow s = s.us ∧
    (∀ i : Fin 8, (readval (.cal i) s).toNat = s.cal[i].valid.toNat * 2 ^ 31 + s.cal[i].ref.toNat) ∧
    (∀ i : Fin 12, (readval (.frame i) s).toNat = s.frame[i].toNat) ∧
    (∀ i : Fin 10, (readval (.seg i) s).toNat = s.seg[i].toNat) ∧
    (∀ i : Fin 96, (readval (.dur i) s).toNat = s.dur[i].toNat)

/-- Polling does not disturb a run: taking every read off the host's script changes nothing but the script
(70_reset_and_hazards.md R426, 20_memory.md R106). -/
def Obligations.PollingDoesNotDisturbARun : Prop :=
  ∀ (n : Nat) (s t : State), runFor n s = some t →
    runFor n { s with host := s.host.map withoutRead } = some { t with host := t.host.map withoutRead }

/-- A write to a RO register, to an unmapped offset or of a NOP changes nothing (40_host_access.md R165,
10_state.md R50, 41_commands.md R182). -/
def Obligations.HarmlessWritesChangeNothing : Prop :=
  ∀ (s : State) (a : Addr) (d : Word),
    (regAt a = .levelNum ∨ regAt a = .levelDen ∨ regAt a = .cntNoresp ∨ regAt a = .cntPreamble ∨
      regAt a = .cntChecksum ∨ regAt a = .usNow ∨ regAt a = .unmapped ∨ (regAt a = .cmd ∧ opField d = 0)) →
    step (s.asks (.write a d)) = step (s.asks .none)

/-- A store to a RW-idle register while idle: a later read returns the stored fields, every other register
reads as before but STATUS and US_NOW, and nothing outside the RW-idle registers changes
(40_host_access.md R163, R168). -/
def Obligations.StoreThenLoadReturnsTheFields : Prop :=
  ∀ (s : State) (r : Reg) (off : Addr) (d : Word),
    r.offset = some off → r.access = .rwIdle → s.busy = false → s.phase = .idle →
    ∃ t, step (s.asks (.write off d)) = .next t ∧
      readval r t = r.storedWord d ∧
      (∀ r' : Reg, r' ≠ r → r' ≠ .status → r' ≠ .usNow → readval r' t = readval r' s) ∧
      t = ((s.withConfigOf t).withDataOf t).withTimeOf t

/-- A write to STATUS clears the W1C bits written 1 and nothing else; a DONE the block sets at the same edge
stays set (40_host_access.md R166, 60_exceptions.md R377). -/
def Obligations.StatusWriteClearsItsFlags : Prop :=
  ∀ (s : State) (a : Addr) (d : Word), s.inv → regAt a = .status →
    ∃ t, step (s.asks .none) = .next t ∧
      step (s.asks (.write a d)) = .next { t with
        done := t.done && !(d.getLsbD 1 && !(s.busy && !t.busy))
        ign := t.ign && !d.getLsbD 2 }

/-! ## Rules of the whole machine -/

/-- S(1) has the reset values (70_reset_and_hazards.md R411). -/
def Obligations.ResetStateHasTheResetValues : Prop := State.reset.atReset

/-- An edge with RST = 1 gives the reset state whatever the other inputs, a running command included
(70_reset_and_hazards.md R410, R413). -/
def Obligations.ResetEdgeLoadsTheResetValues : Prop :=
  ∀ s : State, s.hostPins.rst = true → ∃ t, step s = .next t ∧ t.atReset ∧ t.params = s.params

/-- The reset state is sound. -/
def Obligations.ResetStateIsSound : Prop := State.reset.inv

/-- Every step keeps the invariant: BUSY is PHASE ≠ IDLE, PRE in range, SEG_COUNT ≤ 10, LEVEL_DEN ≠ 0, and the
phases' own facts (10_state.md R38, R44, R54, R63, R66; 43_pulse_capture.md R245). -/
def Obligations.StepKeepsTheInvariant : Prop := ∀ s t : State, s.inv → step s = .next t → t.inv

/-- No step changes the OPEN parameters (00_scope.md R5). -/
def Obligations.ParametersNeverChange : Prop :=
  ∀ (n : Nat) (s t : State), runFor n s = some t → t.params = s.params

/-- The counters change only by a failing evaluation, by one and saturating, by CLRCNT and by reset
(47_commit_and_counters.md R353, R355). -/
def Obligations.CountersChangeOnlyByTheirRules : Prop :=
  ∀ s t : State, s.inv → s.hostPins.rst = false → step s = .next t →
    ∀ c : FailCode,
      (s.command = some .clrcnt ∧ s.busy = false → t.failCount c = 0) ∧
      (s.phase = .eval ∧ (∃ fo, evalCommand s.curOp s = some (.fail c fo)) →
        t.failCount c = min (s.failCount c + 1) (2 ^ 32 - 1)) ∧
      (¬ (s.command = some .clrcnt ∧ s.busy = false) →
        ¬ (s.phase = .eval ∧ ∃ fo, evalCommand s.curOp s = some (.fail c fo)) →
        t.failCount c = s.failCount c)

/-- TX changes only in the address phases, at the start of READ or SELECT, and by a host write to CTRL while
BUSY = 0 (and by reset) (42_bus_addressor.md R225). -/
def Obligations.TxChangesOnlyByItsWriters : Prop :=
  ∀ s t : State, s.inv → s.hostPins.rst = false → step s = .next t → t.tx ≠ s.tx →
    s.phase = .selOff ∨ s.phase = .selOn ∨
    (s.busy = false ∧ ∃ n, s.command = some (.read n) ∨ s.command = some (.select n)) ∨
    (s.busy = false ∧ ∃ a d, s.busOp = .write a d ∧ regAt a = .ctrl)

/-- A running command's configuration is fixed (20_memory.md R113, 70_reset_and_hazards.md R424). -/
def Obligations.ConfigurationIsFixedWhileBusy : Prop :=
  ∀ s t : State, s.busy = true → s.hostPins.rst = false → step s = .next t →
    t.toEn = s.toEn ∧ t.ie = s.ie ∧ t.timeoutUs = s.timeoutUs ∧ t.selOffUs = s.selOffUs ∧
    t.selOnUs = s.selOnUs ∧ t.cal = s.cal ∧ t.curOp = s.curOp ∧ t.curS = s.curS

/-- FRAME, SEG, their counts, LEVEL, RESULT and the counters change only at a command's end edge while it
runs: a read sees all of its results or none (20_memory.md R110). -/
def Obligations.ResultsAppearOnlyAtTheEnd : Prop :=
  ∀ s t : State, s.inv → s.busy = true → s.hostPins.rst = false → step s = .next t → t.busy = true →
    t = t.withResultsOf s

/-- IRQ is DONE AND IE; it rises only at a command's end edge with IE = 1, or when the host sets IE while
DONE = 1 (60_exceptions.md R373, 10_state.md R68). -/
def Obligations.IrqRisesOnlyOnCompletion : Prop :=
  (∀ s : State, s.irq = (s.done && s.ie)) ∧
  ∀ s t : State, s.inv → s.hostPins.rst = false → step s = .next t → s.irq = false → t.irq = true →
    (s.busy = true ∧ t.busy = false ∧ s.ie = true) ∨
    (s.done = true ∧ s.busy = false ∧ ∃ a d, s.busOp = .write a d ∧ regAt a = .ctrl ∧ d.getLsbD 1 = true)

/-- The outcome of a READ or CAPTURE does not depend on the data registers before its start: two runs that
differ only in them differ only in them until the command ends (41_commands.md R197). -/
def Obligations.CaptureOutcomeIgnoresOldData : Prop :=
  ∀ (n : Nat) (s1 s2 t1 t2 : State) (i : Instr) (rest : List HostPins),
    (∃ sensor, i = .read sensor ∨ i = .capture sensor) →
    s1.inv → s1.busy = false → s2 = s1.withDataOf s2 → s1.writesCommand i rest → 1 ≤ n →
    (∀ m u, 1 ≤ m → m < n → runFor m s1 = some u → u.busy = true) →
    runFor n s1 = some t1 → runFor n s2 = some t2 → t2 = t1.withDataOf t2
end

