-- ==== Sys2Proof/Laws/State.lean ====
section
/-! SUPPORT. One lemma per field per unconditional update of the state, each true by `rfl`, so that no proof
unfolds a record update. -/

namespace Sys2Proof.Machine

/-! `State.setIgn` -/

@[simp] theorem setIgn_toEn (s : State) : (s.setIgn).toEn = s.toEn := rfl
@[simp] theorem setIgn_ie (s : State) : (s.setIgn).ie = s.ie := rfl
@[simp] theorem setIgn_tx (s : State) : (s.setIgn).tx = s.tx := rfl
@[simp] theorem setIgn_busy (s : State) : (s.setIgn).busy = s.busy := rfl
@[simp] theorem setIgn_done (s : State) : (s.setIgn).done = s.done := rfl
@[simp] theorem setIgn_ign (s : State) : (s.setIgn).ign = true := rfl
@[simp] theorem setIgn_result (s : State) : (s.setIgn).result = s.result := rfl
@[simp] theorem setIgn_timeoutUs (s : State) : (s.setIgn).timeoutUs = s.timeoutUs := rfl
@[simp] theorem setIgn_selOffUs (s : State) : (s.setIgn).selOffUs = s.selOffUs := rfl
@[simp] theorem setIgn_selOnUs (s : State) : (s.setIgn).selOnUs = s.selOnUs := rfl
@[simp] theorem setIgn_levelNum (s : State) : (s.setIgn).levelNum = s.levelNum := rfl
@[simp] theorem setIgn_levelDen (s : State) : (s.setIgn).levelDen = s.levelDen := rfl
@[simp] theorem setIgn_cntNoresp (s : State) : (s.setIgn).cntNoresp = s.cntNoresp := rfl
@[simp] theorem setIgn_cntPreamble (s : State) : (s.setIgn).cntPreamble = s.cntPreamble := rfl
@[simp] theorem setIgn_cntChecksum (s : State) : (s.setIgn).cntChecksum = s.cntChecksum := rfl
@[simp] theorem setIgn_durCount (s : State) : (s.setIgn).durCount = s.durCount := rfl
@[simp] theorem setIgn_frameCount (s : State) : (s.setIgn).frameCount = s.frameCount := rfl
@[simp] theorem setIgn_segCount (s : State) : (s.setIgn).segCount = s.segCount := rfl
@[simp] theorem setIgn_cal (s : State) : (s.setIgn).cal = s.cal := rfl
@[simp] theorem setIgn_frame (s : State) : (s.setIgn).frame = s.frame := rfl
@[simp] theorem setIgn_seg (s : State) : (s.setIgn).seg = s.seg := rfl
@[simp] theorem setIgn_dur (s : State) : (s.setIgn).dur = s.dur := rfl
@[simp] theorem setIgn_phase (s : State) : (s.setIgn).phase = s.phase := rfl
@[simp] theorem setIgn_sync1 (s : State) : (s.setIgn).sync1 = s.sync1 := rfl
@[simp] theorem setIgn_sync2 (s : State) : (s.setIgn).sync2 = s.sync2 := rfl
@[simp] theorem setIgn_pre (s : State) : (s.setIgn).pre = s.pre := rfl
@[simp] theorem setIgn_us (s : State) : (s.setIgn).us = s.us := rfl
@[simp] theorem setIgn_tStart (s : State) : (s.setIgn).tStart = s.tStart := rfl
@[simp] theorem setIgn_tFall (s : State) : (s.setIgn).tFall = s.tFall := rfl
@[simp] theorem setIgn_selRemain (s : State) : (s.setIgn).selRemain = s.selRemain := rfl
@[simp] theorem setIgn_curOp (s : State) : (s.setIgn).curOp = s.curOp := rfl
@[simp] theorem setIgn_curS (s : State) : (s.setIgn).curS = s.curS := rfl
@[simp] theorem setIgn_params (s : State) : (s.setIgn).params = s.params := rfl
@[simp] theorem setIgn_host (s : State) : (s.setIgn).host = s.host := rfl
@[simp] theorem setIgn_rxWave (s : State) : (s.setIgn).rxWave = s.rxWave := rfl
@[simp] theorem setIgn_edge (s : State) : (s.setIgn).edge = s.edge := rfl

/-! `State.clearFlags` -/

@[simp] theorem clearFlags_toEn (d : Word) (s : State) : (s.clearFlags d).toEn = s.toEn := rfl
@[simp] theorem clearFlags_ie (d : Word) (s : State) : (s.clearFlags d).ie = s.ie := rfl
@[simp] theorem clearFlags_tx (d : Word) (s : State) : (s.clearFlags d).tx = s.tx := rfl
@[simp] theorem clearFlags_busy (d : Word) (s : State) : (s.clearFlags d).busy = s.busy := rfl
@[simp] theorem clearFlags_done (d : Word) (s : State) : (s.clearFlags d).done = (s.done && !d.getLsbD 1) := rfl
@[simp] theorem clearFlags_ign (d : Word) (s : State) : (s.clearFlags d).ign = (s.ign && !d.getLsbD 2) := rfl
@[simp] theorem clearFlags_result (d : Word) (s : State) : (s.clearFlags d).result = s.result := rfl
@[simp] theorem clearFlags_timeoutUs (d : Word) (s : State) : (s.clearFlags d).timeoutUs = s.timeoutUs := rfl
@[simp] theorem clearFlags_selOffUs (d : Word) (s : State) : (s.clearFlags d).selOffUs = s.selOffUs := rfl
@[simp] theorem clearFlags_selOnUs (d : Word) (s : State) : (s.clearFlags d).selOnUs = s.selOnUs := rfl
@[simp] theorem clearFlags_levelNum (d : Word) (s : State) : (s.clearFlags d).levelNum = s.levelNum := rfl
@[simp] theorem clearFlags_levelDen (d : Word) (s : State) : (s.clearFlags d).levelDen = s.levelDen := rfl
@[simp] theorem clearFlags_cntNoresp (d : Word) (s : State) : (s.clearFlags d).cntNoresp = s.cntNoresp := rfl
@[simp] theorem clearFlags_cntPreamble (d : Word) (s : State) : (s.clearFlags d).cntPreamble = s.cntPreamble := rfl
@[simp] theorem clearFlags_cntChecksum (d : Word) (s : State) : (s.clearFlags d).cntChecksum = s.cntChecksum := rfl
@[simp] theorem clearFlags_durCount (d : Word) (s : State) : (s.clearFlags d).durCount = s.durCount := rfl
@[simp] theorem clearFlags_frameCount (d : Word) (s : State) : (s.clearFlags d).frameCount = s.frameCount := rfl
@[simp] theorem clearFlags_segCount (d : Word) (s : State) : (s.clearFlags d).segCount = s.segCount := rfl
@[simp] theorem clearFlags_cal (d : Word) (s : State) : (s.clearFlags d).cal = s.cal := rfl
@[simp] theorem clearFlags_frame (d : Word) (s : State) : (s.clearFlags d).frame = s.frame := rfl
@[simp] theorem clearFlags_seg (d : Word) (s : State) : (s.clearFlags d).seg = s.seg := rfl
@[simp] theorem clearFlags_dur (d : Word) (s : State) : (s.clearFlags d).dur = s.dur := rfl
@[simp] theorem clearFlags_phase (d : Word) (s : State) : (s.clearFlags d).phase = s.phase := rfl
@[simp] theorem clearFlags_sync1 (d : Word) (s : State) : (s.clearFlags d).sync1 = s.sync1 := rfl
@[simp] theorem clearFlags_sync2 (d : Word) (s : State) : (s.clearFlags d).sync2 = s.sync2 := rfl
@[simp] theorem clearFlags_pre (d : Word) (s : State) : (s.clearFlags d).pre = s.pre := rfl
@[simp] theorem clearFlags_us (d : Word) (s : State) : (s.clearFlags d).us = s.us := rfl
@[simp] theorem clearFlags_tStart (d : Word) (s : State) : (s.clearFlags d).tStart = s.tStart := rfl
@[simp] theorem clearFlags_tFall (d : Word) (s : State) : (s.clearFlags d).tFall = s.tFall := rfl
@[simp] theorem clearFlags_selRemain (d : Word) (s : State) : (s.clearFlags d).selRemain = s.selRemain := rfl
@[simp] theorem clearFlags_curOp (d : Word) (s : State) : (s.clearFlags d).curOp = s.curOp := rfl
@[simp] theorem clearFlags_curS (d : Word) (s : State) : (s.clearFlags d).curS = s.curS := rfl
@[simp] theorem clearFlags_params (d : Word) (s : State) : (s.clearFlags d).params = s.params := rfl
@[simp] theorem clearFlags_host (d : Word) (s : State) : (s.clearFlags d).host = s.host := rfl
@[simp] theorem clearFlags_rxWave (d : Word) (s : State) : (s.clearFlags d).rxWave = s.rxWave := rfl
@[simp] theorem clearFlags_edge (d : Word) (s : State) : (s.clearFlags d).edge = s.edge := rfl

/-! `State.endCommand` -/

@[simp] theorem endCommand_toEn (s : State) : (s.endCommand).toEn = s.toEn := rfl
@[simp] theorem endCommand_ie (s : State) : (s.endCommand).ie = s.ie := rfl
@[simp] theorem endCommand_tx (s : State) : (s.endCommand).tx = s.tx := rfl
@[simp] theorem endCommand_busy (s : State) : (s.endCommand).busy = false := rfl
@[simp] theorem endCommand_done (s : State) : (s.endCommand).done = true := rfl
@[simp] theorem endCommand_ign (s : State) : (s.endCommand).ign = s.ign := rfl
@[simp] theorem endCommand_result (s : State) : (s.endCommand).result = s.result := rfl
@[simp] theorem endCommand_timeoutUs (s : State) : (s.endCommand).timeoutUs = s.timeoutUs := rfl
@[simp] theorem endCommand_selOffUs (s : State) : (s.endCommand).selOffUs = s.selOffUs := rfl
@[simp] theorem endCommand_selOnUs (s : State) : (s.endCommand).selOnUs = s.selOnUs := rfl
@[simp] theorem endCommand_levelNum (s : State) : (s.endCommand).levelNum = s.levelNum := rfl
@[simp] theorem endCommand_levelDen (s : State) : (s.endCommand).levelDen = s.levelDen := rfl
@[simp] theorem endCommand_cntNoresp (s : State) : (s.endCommand).cntNoresp = s.cntNoresp := rfl
@[simp] theorem endCommand_cntPreamble (s : State) : (s.endCommand).cntPreamble = s.cntPreamble := rfl
@[simp] theorem endCommand_cntChecksum (s : State) : (s.endCommand).cntChecksum = s.cntChecksum := rfl
@[simp] theorem endCommand_durCount (s : State) : (s.endCommand).durCount = s.durCount := rfl
@[simp] theorem endCommand_frameCount (s : State) : (s.endCommand).frameCount = s.frameCount := rfl
@[simp] theorem endCommand_segCount (s : State) : (s.endCommand).segCount = s.segCount := rfl
@[simp] theorem endCommand_cal (s : State) : (s.endCommand).cal = s.cal := rfl
@[simp] theorem endCommand_frame (s : State) : (s.endCommand).frame = s.frame := rfl
@[simp] theorem endCommand_seg (s : State) : (s.endCommand).seg = s.seg := rfl
@[simp] theorem endCommand_dur (s : State) : (s.endCommand).dur = s.dur := rfl
@[simp] theorem endCommand_phase (s : State) : (s.endCommand).phase = .idle := rfl
@[simp] theorem endCommand_sync1 (s : State) : (s.endCommand).sync1 = s.sync1 := rfl
@[simp] theorem endCommand_sync2 (s : State) : (s.endCommand).sync2 = s.sync2 := rfl
@[simp] theorem endCommand_pre (s : State) : (s.endCommand).pre = s.pre := rfl
@[simp] theorem endCommand_us (s : State) : (s.endCommand).us = s.us := rfl
@[simp] theorem endCommand_tStart (s : State) : (s.endCommand).tStart = s.tStart := rfl
@[simp] theorem endCommand_tFall (s : State) : (s.endCommand).tFall = s.tFall := rfl
@[simp] theorem endCommand_selRemain (s : State) : (s.endCommand).selRemain = s.selRemain := rfl
@[simp] theorem endCommand_curOp (s : State) : (s.endCommand).curOp = s.curOp := rfl
@[simp] theorem endCommand_curS (s : State) : (s.endCommand).curS = s.curS := rfl
@[simp] theorem endCommand_params (s : State) : (s.endCommand).params = s.params := rfl
@[simp] theorem endCommand_host (s : State) : (s.endCommand).host = s.host := rfl
@[simp] theorem endCommand_rxWave (s : State) : (s.endCommand).rxWave = s.rxWave := rfl
@[simp] theorem endCommand_edge (s : State) : (s.endCommand).edge = s.edge := rfl

/-! `timebase` -/

@[simp] theorem timebase_toEn (b : Bool) (s t : State) : (timebase b s t).toEn = t.toEn := rfl
@[simp] theorem timebase_ie (b : Bool) (s t : State) : (timebase b s t).ie = t.ie := rfl
@[simp] theorem timebase_tx (b : Bool) (s t : State) : (timebase b s t).tx = t.tx := rfl
@[simp] theorem timebase_busy (b : Bool) (s t : State) : (timebase b s t).busy = t.busy := rfl
@[simp] theorem timebase_done (b : Bool) (s t : State) : (timebase b s t).done = t.done := rfl
@[simp] theorem timebase_ign (b : Bool) (s t : State) : (timebase b s t).ign = t.ign := rfl
@[simp] theorem timebase_result (b : Bool) (s t : State) : (timebase b s t).result = t.result := rfl
@[simp] theorem timebase_timeoutUs (b : Bool) (s t : State) : (timebase b s t).timeoutUs = t.timeoutUs := rfl
@[simp] theorem timebase_selOffUs (b : Bool) (s t : State) : (timebase b s t).selOffUs = t.selOffUs := rfl
@[simp] theorem timebase_selOnUs (b : Bool) (s t : State) : (timebase b s t).selOnUs = t.selOnUs := rfl
@[simp] theorem timebase_levelNum (b : Bool) (s t : State) : (timebase b s t).levelNum = t.levelNum := rfl
@[simp] theorem timebase_levelDen (b : Bool) (s t : State) : (timebase b s t).levelDen = t.levelDen := rfl
@[simp] theorem timebase_cntNoresp (b : Bool) (s t : State) : (timebase b s t).cntNoresp = t.cntNoresp := rfl
@[simp] theorem timebase_cntPreamble (b : Bool) (s t : State) : (timebase b s t).cntPreamble = t.cntPreamble := rfl
@[simp] theorem timebase_cntChecksum (b : Bool) (s t : State) : (timebase b s t).cntChecksum = t.cntChecksum := rfl
@[simp] theorem timebase_durCount (b : Bool) (s t : State) : (timebase b s t).durCount = t.durCount := rfl
@[simp] theorem timebase_frameCount (b : Bool) (s t : State) : (timebase b s t).frameCount = t.frameCount := rfl
@[simp] theorem timebase_segCount (b : Bool) (s t : State) : (timebase b s t).segCount = t.segCount := rfl
@[simp] theorem timebase_cal (b : Bool) (s t : State) : (timebase b s t).cal = t.cal := rfl
@[simp] theorem timebase_frame (b : Bool) (s t : State) : (timebase b s t).frame = t.frame := rfl
@[simp] theorem timebase_seg (b : Bool) (s t : State) : (timebase b s t).seg = t.seg := rfl
@[simp] theorem timebase_dur (b : Bool) (s t : State) : (timebase b s t).dur = t.dur := rfl
@[simp] theorem timebase_phase (b : Bool) (s t : State) : (timebase b s t).phase = t.phase := rfl
@[simp] theorem timebase_sync1 (b : Bool) (s t : State) : (timebase b s t).sync1 = b := rfl
@[simp] theorem timebase_sync2 (b : Bool) (s t : State) : (timebase b s t).sync2 = s.sync1 := rfl
@[simp] theorem timebase_pre (b : Bool) (s t : State) : (timebase b s t).pre
    = if s.pre = s.params.ticksLess1 then 0 else s.pre + 1 := rfl
@[simp] theorem timebase_us (b : Bool) (s t : State) : (timebase b s t).us
    = if s.pre = s.params.ticksLess1 then s.us + 1 else s.us := rfl
@[simp] theorem timebase_tStart (b : Bool) (s t : State) : (timebase b s t).tStart = t.tStart := rfl
@[simp] theorem timebase_tFall (b : Bool) (s t : State) : (timebase b s t).tFall = t.tFall := rfl
@[simp] theorem timebase_selRemain (b : Bool) (s t : State) : (timebase b s t).selRemain = t.selRemain := rfl
@[simp] theorem timebase_curOp (b : Bool) (s t : State) : (timebase b s t).curOp = t.curOp := rfl
@[simp] theorem timebase_curS (b : Bool) (s t : State) : (timebase b s t).curS = t.curS := rfl
@[simp] theorem timebase_params (b : Bool) (s t : State) : (timebase b s t).params = t.params := rfl
@[simp] theorem timebase_host (b : Bool) (s t : State) : (timebase b s t).host = t.host := rfl
@[simp] theorem timebase_rxWave (b : Bool) (s t : State) : (timebase b s t).rxWave = t.rxWave := rfl
@[simp] theorem timebase_edge (b : Bool) (s t : State) : (timebase b s t).edge = t.edge := rfl

/-! `startCommand` -/

@[simp] theorem startCommand_toEn (op : Opcode) (n : Sensor) (s : State) : (startCommand op n s).toEn = s.toEn := rfl
@[simp] theorem startCommand_ie (op : Opcode) (n : Sensor) (s : State) : (startCommand op n s).ie = s.ie := rfl
@[simp] theorem startCommand_tx (op : Opcode) (n : Sensor) (s : State) : (startCommand op n s).tx = s.tx := rfl
@[simp] theorem startCommand_busy (op : Opcode) (n : Sensor) (s : State) : (startCommand op n s).busy = true := rfl
@[simp] theorem startCommand_done (op : Opcode) (n : Sensor) (s : State) : (startCommand op n s).done = false := rfl
@[simp] theorem startCommand_ign (op : Opcode) (n : Sensor) (s : State) : (startCommand op n s).ign = s.ign := rfl
@[simp] theorem startCommand_result (op : Opcode) (n : Sensor) (s : State) : (startCommand op n s).result
    = s.result := rfl
@[simp] theorem startCommand_timeoutUs (op : Opcode) (n : Sensor) (s : State) : (startCommand op n s).timeoutUs
    = s.timeoutUs := rfl
@[simp] theorem startCommand_selOffUs (op : Opcode) (n : Sensor) (s : State) : (startCommand op n s).selOffUs
    = s.selOffUs := rfl
@[simp] theorem startCommand_selOnUs (op : Opcode) (n : Sensor) (s : State) : (startCommand op n s).selOnUs
    = s.selOnUs := rfl
@[simp] theorem startCommand_levelNum (op : Opcode) (n : Sensor) (s : State) : (startCommand op n s).levelNum
    = s.levelNum := rfl
@[simp] theorem startCommand_levelDen (op : Opcode) (n : Sensor) (s : State) : (startCommand op n s).levelDen
    = s.levelDen := rfl
@[simp] theorem startCommand_cntNoresp (op : Opcode) (n : Sensor) (s : State) : (startCommand op n s).cntNoresp
    = s.cntNoresp := rfl
@[simp] theorem startCommand_cntPreamble (op : Opcode) (n : Sensor) (s : State) : (startCommand op n s).cntPreamble
    = s.cntPreamble := rfl
@[simp] theorem startCommand_cntChecksum (op : Opcode) (n : Sensor) (s : State) : (startCommand op n s).cntChecksum
    = s.cntChecksum := rfl
@[simp] theorem startCommand_durCount (op : Opcode) (n : Sensor) (s : State) : (startCommand op n s).durCount
    = s.durCount := rfl
@[simp] theorem startCommand_frameCount (op : Opcode) (n : Sensor) (s : State) : (startCommand op n s).frameCount
    = s.frameCount := rfl
@[simp] theorem startCommand_segCount (op : Opcode) (n : Sensor) (s : State) : (startCommand op n s).segCount
    = s.segCount := rfl
@[simp] theorem startCommand_cal (op : Opcode) (n : Sensor) (s : State) : (startCommand op n s).cal = s.cal := rfl
@[simp] theorem startCommand_frame (op : Opcode) (n : Sensor) (s : State) : (startCommand op n s).frame
    = s.frame := rfl
@[simp] theorem startCommand_seg (op : Opcode) (n : Sensor) (s : State) : (startCommand op n s).seg = s.seg := rfl
@[simp] theorem startCommand_dur (op : Opcode) (n : Sensor) (s : State) : (startCommand op n s).dur = s.dur := rfl
@[simp] theorem startCommand_phase (op : Opcode) (n : Sensor) (s : State) : (startCommand op n s).phase
    = s.phase := rfl
@[simp] theorem startCommand_sync1 (op : Opcode) (n : Sensor) (s : State) : (startCommand op n s).sync1
    = s.sync1 := rfl
@[simp] theorem startCommand_sync2 (op : Opcode) (n : Sensor) (s : State) : (startCommand op n s).sync2
    = s.sync2 := rfl
@[simp] theorem startCommand_pre (op : Opcode) (n : Sensor) (s : State) : (startCommand op n s).pre = s.pre := rfl
@[simp] theorem startCommand_us (op : Opcode) (n : Sensor) (s : State) : (startCommand op n s).us = s.us := rfl
@[simp] theorem startCommand_tStart (op : Opcode) (n : Sensor) (s : State) : (startCommand op n s).tStart
    = s.tStart := rfl
@[simp] theorem startCommand_tFall (op : Opcode) (n : Sensor) (s : State) : (startCommand op n s).tFall
    = s.tFall := rfl
@[simp] theorem startCommand_selRemain (op : Opcode) (n : Sensor) (s : State) : (startCommand op n s).selRemain
    = s.selRemain := rfl
@[simp] theorem startCommand_curOp (op : Opcode) (n : Sensor) (s : State) : (startCommand op n s).curOp = op := rfl
@[simp] theorem startCommand_curS (op : Opcode) (n : Sensor) (s : State) : (startCommand op n s).curS = n := rfl
@[simp] theorem startCommand_params (op : Opcode) (n : Sensor) (s : State) : (startCommand op n s).params
    = s.params := rfl
@[simp] theorem startCommand_host (op : Opcode) (n : Sensor) (s : State) : (startCommand op n s).host = s.host := rfl
@[simp] theorem startCommand_rxWave (op : Opcode) (n : Sensor) (s : State) : (startCommand op n s).rxWave
    = s.rxWave := rfl
@[simp] theorem startCommand_edge (op : Opcode) (n : Sensor) (s : State) : (startCommand op n s).edge = s.edge := rfl

/-! `levelSentinel` -/

@[simp] theorem levelSentinel_toEn (s : State) : (levelSentinel s).toEn = s.toEn := rfl
@[simp] theorem levelSentinel_ie (s : State) : (levelSentinel s).ie = s.ie := rfl
@[simp] theorem levelSentinel_tx (s : State) : (levelSentinel s).tx = s.tx := rfl
@[simp] theorem levelSentinel_busy (s : State) : (levelSentinel s).busy = s.busy := rfl
@[simp] theorem levelSentinel_done (s : State) : (levelSentinel s).done = s.done := rfl
@[simp] theorem levelSentinel_ign (s : State) : (levelSentinel s).ign = s.ign := rfl
@[simp] theorem levelSentinel_result (s : State) : (levelSentinel s).result = s.result := rfl
@[simp] theorem levelSentinel_timeoutUs (s : State) : (levelSentinel s).timeoutUs = s.timeoutUs := rfl
@[simp] theorem levelSentinel_selOffUs (s : State) : (levelSentinel s).selOffUs = s.selOffUs := rfl
@[simp] theorem levelSentinel_selOnUs (s : State) : (levelSentinel s).selOnUs = s.selOnUs := rfl
@[simp] theorem levelSentinel_levelNum (s : State) : (levelSentinel s).levelNum = 0xFFFFFFFF := rfl
@[simp] theorem levelSentinel_levelDen (s : State) : (levelSentinel s).levelDen = 1 := rfl
@[simp] theorem levelSentinel_cntNoresp (s : State) : (levelSentinel s).cntNoresp = s.cntNoresp := rfl
@[simp] theorem levelSentinel_cntPreamble (s : State) : (levelSentinel s).cntPreamble = s.cntPreamble := rfl
@[simp] theorem levelSentinel_cntChecksum (s : State) : (levelSentinel s).cntChecksum = s.cntChecksum := rfl
@[simp] theorem levelSentinel_durCount (s : State) : (levelSentinel s).durCount = s.durCount := rfl
@[simp] theorem levelSentinel_frameCount (s : State) : (levelSentinel s).frameCount = s.frameCount := rfl
@[simp] theorem levelSentinel_segCount (s : State) : (levelSentinel s).segCount = s.segCount := rfl
@[simp] theorem levelSentinel_cal (s : State) : (levelSentinel s).cal = s.cal := rfl
@[simp] theorem levelSentinel_frame (s : State) : (levelSentinel s).frame = s.frame := rfl
@[simp] theorem levelSentinel_seg (s : State) : (levelSentinel s).seg = s.seg := rfl
@[simp] theorem levelSentinel_dur (s : State) : (levelSentinel s).dur = s.dur := rfl
@[simp] theorem levelSentinel_phase (s : State) : (levelSentinel s).phase = s.phase := rfl
@[simp] theorem levelSentinel_sync1 (s : State) : (levelSentinel s).sync1 = s.sync1 := rfl
@[simp] theorem levelSentinel_sync2 (s : State) : (levelSentinel s).sync2 = s.sync2 := rfl
@[simp] theorem levelSentinel_pre (s : State) : (levelSentinel s).pre = s.pre := rfl
@[simp] theorem levelSentinel_us (s : State) : (levelSentinel s).us = s.us := rfl
@[simp] theorem levelSentinel_tStart (s : State) : (levelSentinel s).tStart = s.tStart := rfl
@[simp] theorem levelSentinel_tFall (s : State) : (levelSentinel s).tFall = s.tFall := rfl
@[simp] theorem levelSentinel_selRemain (s : State) : (levelSentinel s).selRemain = s.selRemain := rfl
@[simp] theorem levelSentinel_curOp (s : State) : (levelSentinel s).curOp = s.curOp := rfl
@[simp] theorem levelSentinel_curS (s : State) : (levelSentinel s).curS = s.curS := rfl
@[simp] theorem levelSentinel_params (s : State) : (levelSentinel s).params = s.params := rfl
@[simp] theorem levelSentinel_host (s : State) : (levelSentinel s).host = s.host := rfl
@[simp] theorem levelSentinel_rxWave (s : State) : (levelSentinel s).rxWave = s.rxWave := rfl
@[simp] theorem levelSentinel_edge (s : State) : (levelSentinel s).edge = s.edge := rfl

/-! `beginCapture` -/

@[simp] theorem beginCapture_toEn (s t : State) : (beginCapture s t).toEn = t.toEn := rfl
@[simp] theorem beginCapture_ie (s t : State) : (beginCapture s t).ie = t.ie := rfl
@[simp] theorem beginCapture_tx (s t : State) : (beginCapture s t).tx = t.tx := rfl
@[simp] theorem beginCapture_busy (s t : State) : (beginCapture s t).busy = t.busy := rfl
@[simp] theorem beginCapture_done (s t : State) : (beginCapture s t).done = t.done := rfl
@[simp] theorem beginCapture_ign (s t : State) : (beginCapture s t).ign = t.ign := rfl
@[simp] theorem beginCapture_result (s t : State) : (beginCapture s t).result = t.result := rfl
@[simp] theorem beginCapture_timeoutUs (s t : State) : (beginCapture s t).timeoutUs = t.timeoutUs := rfl
@[simp] theorem beginCapture_selOffUs (s t : State) : (beginCapture s t).selOffUs = t.selOffUs := rfl
@[simp] theorem beginCapture_selOnUs (s t : State) : (beginCapture s t).selOnUs = t.selOnUs := rfl
@[simp] theorem beginCapture_levelNum (s t : State) : (beginCapture s t).levelNum = t.levelNum := rfl
@[simp] theorem beginCapture_levelDen (s t : State) : (beginCapture s t).levelDen = t.levelDen := rfl
@[simp] theorem beginCapture_cntNoresp (s t : State) : (beginCapture s t).cntNoresp = t.cntNoresp := rfl
@[simp] theorem beginCapture_cntPreamble (s t : State) : (beginCapture s t).cntPreamble = t.cntPreamble := rfl
@[simp] theorem beginCapture_cntChecksum (s t : State) : (beginCapture s t).cntChecksum = t.cntChecksum := rfl
@[simp] theorem beginCapture_durCount (s t : State) : (beginCapture s t).durCount = 0 := rfl
@[simp] theorem beginCapture_frameCount (s t : State) : (beginCapture s t).frameCount = t.frameCount := rfl
@[simp] theorem beginCapture_segCount (s t : State) : (beginCapture s t).segCount = t.segCount := rfl
@[simp] theorem beginCapture_cal (s t : State) : (beginCapture s t).cal = t.cal := rfl
@[simp] theorem beginCapture_frame (s t : State) : (beginCapture s t).frame = t.frame := rfl
@[simp] theorem beginCapture_seg (s t : State) : (beginCapture s t).seg = t.seg := rfl
@[simp] theorem beginCapture_dur (s t : State) : (beginCapture s t).dur = t.dur := rfl
@[simp] theorem beginCapture_phase (s t : State) : (beginCapture s t).phase = .capHigh := rfl
@[simp] theorem beginCapture_sync1 (s t : State) : (beginCapture s t).sync1 = t.sync1 := rfl
@[simp] theorem beginCapture_sync2 (s t : State) : (beginCapture s t).sync2 = t.sync2 := rfl
@[simp] theorem beginCapture_pre (s t : State) : (beginCapture s t).pre = t.pre := rfl
@[simp] theorem beginCapture_us (s t : State) : (beginCapture s t).us = t.us := rfl
@[simp] theorem beginCapture_tStart (s t : State) : (beginCapture s t).tStart = s.us := rfl
@[simp] theorem beginCapture_tFall (s t : State) : (beginCapture s t).tFall = t.tFall := rfl
@[simp] theorem beginCapture_selRemain (s t : State) : (beginCapture s t).selRemain = t.selRemain := rfl
@[simp] theorem beginCapture_curOp (s t : State) : (beginCapture s t).curOp = t.curOp := rfl
@[simp] theorem beginCapture_curS (s t : State) : (beginCapture s t).curS = t.curS := rfl
@[simp] theorem beginCapture_params (s t : State) : (beginCapture s t).params = t.params := rfl
@[simp] theorem beginCapture_host (s t : State) : (beginCapture s t).host = t.host := rfl
@[simp] theorem beginCapture_rxWave (s t : State) : (beginCapture s t).rxWave = t.rxWave := rfl
@[simp] theorem beginCapture_edge (s t : State) : (beginCapture s t).edge = t.edge := rfl

/-! `storeDuration` -/

@[simp] theorem storeDuration_toEn (s t : State) : (storeDuration s t).toEn = t.toEn := rfl
@[simp] theorem storeDuration_ie (s t : State) : (storeDuration s t).ie = t.ie := rfl
@[simp] theorem storeDuration_tx (s t : State) : (storeDuration s t).tx = t.tx := rfl
@[simp] theorem storeDuration_busy (s t : State) : (storeDuration s t).busy = t.busy := rfl
@[simp] theorem storeDuration_done (s t : State) : (storeDuration s t).done = t.done := rfl
@[simp] theorem storeDuration_ign (s t : State) : (storeDuration s t).ign = t.ign := rfl
@[simp] theorem storeDuration_result (s t : State) : (storeDuration s t).result = t.result := rfl
@[simp] theorem storeDuration_timeoutUs (s t : State) : (storeDuration s t).timeoutUs = t.timeoutUs := rfl
@[simp] theorem storeDuration_selOffUs (s t : State) : (storeDuration s t).selOffUs = t.selOffUs := rfl
@[simp] theorem storeDuration_selOnUs (s t : State) : (storeDuration s t).selOnUs = t.selOnUs := rfl
@[simp] theorem storeDuration_levelNum (s t : State) : (storeDuration s t).levelNum = t.levelNum := rfl
@[simp] theorem storeDuration_levelDen (s t : State) : (storeDuration s t).levelDen = t.levelDen := rfl
@[simp] theorem storeDuration_cntNoresp (s t : State) : (storeDuration s t).cntNoresp = t.cntNoresp := rfl
@[simp] theorem storeDuration_cntPreamble (s t : State) : (storeDuration s t).cntPreamble = t.cntPreamble := rfl
@[simp] theorem storeDuration_cntChecksum (s t : State) : (storeDuration s t).cntChecksum = t.cntChecksum := rfl
@[simp] theorem storeDuration_durCount (s t : State) : (storeDuration s t).durCount = s.durCount + 1 := rfl
@[simp] theorem storeDuration_frameCount (s t : State) : (storeDuration s t).frameCount = t.frameCount := rfl
@[simp] theorem storeDuration_segCount (s t : State) : (storeDuration s t).segCount = t.segCount := rfl
@[simp] theorem storeDuration_cal (s t : State) : (storeDuration s t).cal = t.cal := rfl
@[simp] theorem storeDuration_frame (s t : State) : (storeDuration s t).frame = t.frame := rfl
@[simp] theorem storeDuration_seg (s t : State) : (storeDuration s t).seg = t.seg := rfl
@[simp] theorem storeDuration_dur (s t : State) : (storeDuration s t).dur
    = t.dur.setIfInBounds s.durCount.toNat (sat16 (elapsed s.us s.tFall)) := rfl
@[simp] theorem storeDuration_phase (s t : State) : (storeDuration s t).phase = t.phase := rfl
@[simp] theorem storeDuration_sync1 (s t : State) : (storeDuration s t).sync1 = t.sync1 := rfl
@[simp] theorem storeDuration_sync2 (s t : State) : (storeDuration s t).sync2 = t.sync2 := rfl
@[simp] theorem storeDuration_pre (s t : State) : (storeDuration s t).pre = t.pre := rfl
@[simp] theorem storeDuration_us (s t : State) : (storeDuration s t).us = t.us := rfl
@[simp] theorem storeDuration_tStart (s t : State) : (storeDuration s t).tStart = t.tStart := rfl
@[simp] theorem storeDuration_tFall (s t : State) : (storeDuration s t).tFall = t.tFall := rfl
@[simp] theorem storeDuration_selRemain (s t : State) : (storeDuration s t).selRemain = t.selRemain := rfl
@[simp] theorem storeDuration_curOp (s t : State) : (storeDuration s t).curOp = t.curOp := rfl
@[simp] theorem storeDuration_curS (s t : State) : (storeDuration s t).curS = t.curS := rfl
@[simp] theorem storeDuration_params (s t : State) : (storeDuration s t).params = t.params := rfl
@[simp] theorem storeDuration_host (s t : State) : (storeDuration s t).host = t.host := rfl
@[simp] theorem storeDuration_rxWave (s t : State) : (storeDuration s t).rxWave = t.rxWave := rfl
@[simp] theorem storeDuration_edge (s t : State) : (storeDuration s t).edge = t.edge := rfl

/-! `beginSelect` -/

@[simp] theorem beginSelect_toEn (n : Sensor) (s t : State) : (beginSelect n s t).toEn = t.toEn := rfl
@[simp] theorem beginSelect_ie (n : Sensor) (s t : State) : (beginSelect n s t).ie = t.ie := rfl
@[simp] theorem beginSelect_tx (n : Sensor) (s t : State) : (beginSelect n s t).tx = false := rfl
@[simp] theorem beginSelect_busy (n : Sensor) (s t : State) : (beginSelect n s t).busy = t.busy := rfl
@[simp] theorem beginSelect_done (n : Sensor) (s t : State) : (beginSelect n s t).done = t.done := rfl
@[simp] theorem beginSelect_ign (n : Sensor) (s t : State) : (beginSelect n s t).ign = t.ign := rfl
@[simp] theorem beginSelect_result (n : Sensor) (s t : State) : (beginSelect n s t).result = t.result := rfl
@[simp] theorem beginSelect_timeoutUs (n : Sensor) (s t : State) : (beginSelect n s t).timeoutUs = t.timeoutUs := rfl
@[simp] theorem beginSelect_selOffUs (n : Sensor) (s t : State) : (beginSelect n s t).selOffUs = t.selOffUs := rfl
@[simp] theorem beginSelect_selOnUs (n : Sensor) (s t : State) : (beginSelect n s t).selOnUs = t.selOnUs := rfl
@[simp] theorem beginSelect_levelNum (n : Sensor) (s t : State) : (beginSelect n s t).levelNum = t.levelNum := rfl
@[simp] theorem beginSelect_levelDen (n : Sensor) (s t : State) : (beginSelect n s t).levelDen = t.levelDen := rfl
@[simp] theorem beginSelect_cntNoresp (n : Sensor) (s t : State) : (beginSelect n s t).cntNoresp = t.cntNoresp := rfl
@[simp] theorem beginSelect_cntPreamble (n : Sensor) (s t : State) : (beginSelect n s t).cntPreamble
    = t.cntPreamble := rfl
@[simp] theorem beginSelect_cntChecksum (n : Sensor) (s t : State) : (beginSelect n s t).cntChecksum
    = t.cntChecksum := rfl
@[simp] theorem beginSelect_durCount (n : Sensor) (s t : State) : (beginSelect n s t).durCount = t.durCount := rfl
@[simp] theorem beginSelect_frameCount (n : Sensor) (s t : State) : (beginSelect n s t).frameCount
    = t.frameCount := rfl
@[simp] theorem beginSelect_segCount (n : Sensor) (s t : State) : (beginSelect n s t).segCount = t.segCount := rfl
@[simp] theorem beginSelect_cal (n : Sensor) (s t : State) : (beginSelect n s t).cal = t.cal := rfl
@[simp] theorem beginSelect_frame (n : Sensor) (s t : State) : (beginSelect n s t).frame = t.frame := rfl
@[simp] theorem beginSelect_seg (n : Sensor) (s t : State) : (beginSelect n s t).seg = t.seg := rfl
@[simp] theorem beginSelect_dur (n : Sensor) (s t : State) : (beginSelect n s t).dur = t.dur := rfl
@[simp] theorem beginSelect_phase (n : Sensor) (s t : State) : (beginSelect n s t).phase = .selOff := rfl
@[simp] theorem beginSelect_sync1 (n : Sensor) (s t : State) : (beginSelect n s t).sync1 = t.sync1 := rfl
@[simp] theorem beginSelect_sync2 (n : Sensor) (s t : State) : (beginSelect n s t).sync2 = t.sync2 := rfl
@[simp] theorem beginSelect_pre (n : Sensor) (s t : State) : (beginSelect n s t).pre = t.pre := rfl
@[simp] theorem beginSelect_us (n : Sensor) (s t : State) : (beginSelect n s t).us = t.us := rfl
@[simp] theorem beginSelect_tStart (n : Sensor) (s t : State) : (beginSelect n s t).tStart = s.us := rfl
@[simp] theorem beginSelect_tFall (n : Sensor) (s t : State) : (beginSelect n s t).tFall = t.tFall := rfl
@[simp] theorem beginSelect_selRemain (n : Sensor) (s t : State) : (beginSelect n s t).selRemain = pulseCount n := rfl
@[simp] theorem beginSelect_curOp (n : Sensor) (s t : State) : (beginSelect n s t).curOp = t.curOp := rfl
@[simp] theorem beginSelect_curS (n : Sensor) (s t : State) : (beginSelect n s t).curS = t.curS := rfl
@[simp] theorem beginSelect_params (n : Sensor) (s t : State) : (beginSelect n s t).params = t.params := rfl
@[simp] theorem beginSelect_host (n : Sensor) (s t : State) : (beginSelect n s t).host = t.host := rfl
@[simp] theorem beginSelect_rxWave (n : Sensor) (s t : State) : (beginSelect n s t).rxWave = t.rxWave := rfl
@[simp] theorem beginSelect_edge (n : Sensor) (s t : State) : (beginSelect n s t).edge = t.edge := rfl

/-! `nextPulse` -/

@[simp] theorem nextPulse_toEn (s t : State) : (nextPulse s t).toEn = t.toEn := rfl
@[simp] theorem nextPulse_ie (s t : State) : (nextPulse s t).ie = t.ie := rfl
@[simp] theorem nextPulse_tx (s t : State) : (nextPulse s t).tx = false := rfl
@[simp] theorem nextPulse_busy (s t : State) : (nextPulse s t).busy = t.busy := rfl
@[simp] theorem nextPulse_done (s t : State) : (nextPulse s t).done = t.done := rfl
@[simp] theorem nextPulse_ign (s t : State) : (nextPulse s t).ign = t.ign := rfl
@[simp] theorem nextPulse_result (s t : State) : (nextPulse s t).result = t.result := rfl
@[simp] theorem nextPulse_timeoutUs (s t : State) : (nextPulse s t).timeoutUs = t.timeoutUs := rfl
@[simp] theorem nextPulse_selOffUs (s t : State) : (nextPulse s t).selOffUs = t.selOffUs := rfl
@[simp] theorem nextPulse_selOnUs (s t : State) : (nextPulse s t).selOnUs = t.selOnUs := rfl
@[simp] theorem nextPulse_levelNum (s t : State) : (nextPulse s t).levelNum = t.levelNum := rfl
@[simp] theorem nextPulse_levelDen (s t : State) : (nextPulse s t).levelDen = t.levelDen := rfl
@[simp] theorem nextPulse_cntNoresp (s t : State) : (nextPulse s t).cntNoresp = t.cntNoresp := rfl
@[simp] theorem nextPulse_cntPreamble (s t : State) : (nextPulse s t).cntPreamble = t.cntPreamble := rfl
@[simp] theorem nextPulse_cntChecksum (s t : State) : (nextPulse s t).cntChecksum = t.cntChecksum := rfl
@[simp] theorem nextPulse_durCount (s t : State) : (nextPulse s t).durCount = t.durCount := rfl
@[simp] theorem nextPulse_frameCount (s t : State) : (nextPulse s t).frameCount = t.frameCount := rfl
@[simp] theorem nextPulse_segCount (s t : State) : (nextPulse s t).segCount = t.segCount := rfl
@[simp] theorem nextPulse_cal (s t : State) : (nextPulse s t).cal = t.cal := rfl
@[simp] theorem nextPulse_frame (s t : State) : (nextPulse s t).frame = t.frame := rfl
@[simp] theorem nextPulse_seg (s t : State) : (nextPulse s t).seg = t.seg := rfl
@[simp] theorem nextPulse_dur (s t : State) : (nextPulse s t).dur = t.dur := rfl
@[simp] theorem nextPulse_phase (s t : State) : (nextPulse s t).phase = .selOff := rfl
@[simp] theorem nextPulse_sync1 (s t : State) : (nextPulse s t).sync1 = t.sync1 := rfl
@[simp] theorem nextPulse_sync2 (s t : State) : (nextPulse s t).sync2 = t.sync2 := rfl
@[simp] theorem nextPulse_pre (s t : State) : (nextPulse s t).pre = t.pre := rfl
@[simp] theorem nextPulse_us (s t : State) : (nextPulse s t).us = t.us := rfl
@[simp] theorem nextPulse_tStart (s t : State) : (nextPulse s t).tStart = s.us := rfl
@[simp] theorem nextPulse_tFall (s t : State) : (nextPulse s t).tFall = t.tFall := rfl
@[simp] theorem nextPulse_selRemain (s t : State) : (nextPulse s t).selRemain = s.selRemain - 1 := rfl
@[simp] theorem nextPulse_curOp (s t : State) : (nextPulse s t).curOp = t.curOp := rfl
@[simp] theorem nextPulse_curS (s t : State) : (nextPulse s t).curS = t.curS := rfl
@[simp] theorem nextPulse_params (s t : State) : (nextPulse s t).params = t.params := rfl
@[simp] theorem nextPulse_host (s t : State) : (nextPulse s t).host = t.host := rfl
@[simp] theorem nextPulse_rxWave (s t : State) : (nextPulse s t).rxWave = t.rxWave := rfl
@[simp] theorem nextPulse_edge (s t : State) : (nextPulse s t).edge = t.edge := rfl

/-! `beginEval` -/

@[simp] theorem beginEval_toEn (s : State) : (beginEval s).toEn = s.toEn := rfl
@[simp] theorem beginEval_ie (s : State) : (beginEval s).ie = s.ie := rfl
@[simp] theorem beginEval_tx (s : State) : (beginEval s).tx = s.tx := rfl
@[simp] theorem beginEval_busy (s : State) : (beginEval s).busy = s.busy := rfl
@[simp] theorem beginEval_done (s : State) : (beginEval s).done = s.done := rfl
@[simp] theorem beginEval_ign (s : State) : (beginEval s).ign = s.ign := rfl
@[simp] theorem beginEval_result (s : State) : (beginEval s).result = s.result := rfl
@[simp] theorem beginEval_timeoutUs (s : State) : (beginEval s).timeoutUs = s.timeoutUs := rfl
@[simp] theorem beginEval_selOffUs (s : State) : (beginEval s).selOffUs = s.selOffUs := rfl
@[simp] theorem beginEval_selOnUs (s : State) : (beginEval s).selOnUs = s.selOnUs := rfl
@[simp] theorem beginEval_levelNum (s : State) : (beginEval s).levelNum = s.levelNum := rfl
@[simp] theorem beginEval_levelDen (s : State) : (beginEval s).levelDen = s.levelDen := rfl
@[simp] theorem beginEval_cntNoresp (s : State) : (beginEval s).cntNoresp = s.cntNoresp := rfl
@[simp] theorem beginEval_cntPreamble (s : State) : (beginEval s).cntPreamble = s.cntPreamble := rfl
@[simp] theorem beginEval_cntChecksum (s : State) : (beginEval s).cntChecksum = s.cntChecksum := rfl
@[simp] theorem beginEval_durCount (s : State) : (beginEval s).durCount = s.durCount := rfl
@[simp] theorem beginEval_frameCount (s : State) : (beginEval s).frameCount = s.frameCount := rfl
@[simp] theorem beginEval_segCount (s : State) : (beginEval s).segCount = s.segCount := rfl
@[simp] theorem beginEval_cal (s : State) : (beginEval s).cal = s.cal := rfl
@[simp] theorem beginEval_frame (s : State) : (beginEval s).frame = s.frame := rfl
@[simp] theorem beginEval_seg (s : State) : (beginEval s).seg = s.seg := rfl
@[simp] theorem beginEval_dur (s : State) : (beginEval s).dur = s.dur := rfl
@[simp] theorem beginEval_phase (s : State) : (beginEval s).phase = .eval := rfl
@[simp] theorem beginEval_sync1 (s : State) : (beginEval s).sync1 = s.sync1 := rfl
@[simp] theorem beginEval_sync2 (s : State) : (beginEval s).sync2 = s.sync2 := rfl
@[simp] theorem beginEval_pre (s : State) : (beginEval s).pre = s.pre := rfl
@[simp] theorem beginEval_us (s : State) : (beginEval s).us = s.us := rfl
@[simp] theorem beginEval_tStart (s : State) : (beginEval s).tStart = s.tStart := rfl
@[simp] theorem beginEval_tFall (s : State) : (beginEval s).tFall = s.tFall := rfl
@[simp] theorem beginEval_selRemain (s : State) : (beginEval s).selRemain = s.selRemain := rfl
@[simp] theorem beginEval_curOp (s : State) : (beginEval s).curOp = s.curOp := rfl
@[simp] theorem beginEval_curS (s : State) : (beginEval s).curS = s.curS := rfl
@[simp] theorem beginEval_params (s : State) : (beginEval s).params = s.params := rfl
@[simp] theorem beginEval_host (s : State) : (beginEval s).host = s.host := rfl
@[simp] theorem beginEval_rxWave (s : State) : (beginEval s).rxWave = s.rxWave := rfl
@[simp] theorem beginEval_edge (s : State) : (beginEval s).edge = s.edge := rfl

/-! `clearCounters` -/

@[simp] theorem clearCounters_toEn (s : State) : (clearCounters s).toEn = s.toEn := rfl
@[simp] theorem clearCounters_ie (s : State) : (clearCounters s).ie = s.ie := rfl
@[simp] theorem clearCounters_tx (s : State) : (clearCounters s).tx = s.tx := rfl
@[simp] theorem clearCounters_busy (s : State) : (clearCounters s).busy = s.busy := rfl
@[simp] theorem clearCounters_done (s : State) : (clearCounters s).done = s.done := rfl
@[simp] theorem clearCounters_ign (s : State) : (clearCounters s).ign = s.ign := rfl
@[simp] theorem clearCounters_result (s : State) : (clearCounters s).result = s.result := rfl
@[simp] theorem clearCounters_timeoutUs (s : State) : (clearCounters s).timeoutUs = s.timeoutUs := rfl
@[simp] theorem clearCounters_selOffUs (s : State) : (clearCounters s).selOffUs = s.selOffUs := rfl
@[simp] theorem clearCounters_selOnUs (s : State) : (clearCounters s).selOnUs = s.selOnUs := rfl
@[simp] theorem clearCounters_levelNum (s : State) : (clearCounters s).levelNum = s.levelNum := rfl
@[simp] theorem clearCounters_levelDen (s : State) : (clearCounters s).levelDen = s.levelDen := rfl
@[simp] theorem clearCounters_cntNoresp (s : State) : (clearCounters s).cntNoresp = 0 := rfl
@[simp] theorem clearCounters_cntPreamble (s : State) : (clearCounters s).cntPreamble = 0 := rfl
@[simp] theorem clearCounters_cntChecksum (s : State) : (clearCounters s).cntChecksum = 0 := rfl
@[simp] theorem clearCounters_durCount (s : State) : (clearCounters s).durCount = s.durCount := rfl
@[simp] theorem clearCounters_frameCount (s : State) : (clearCounters s).frameCount = s.frameCount := rfl
@[simp] theorem clearCounters_segCount (s : State) : (clearCounters s).segCount = s.segCount := rfl
@[simp] theorem clearCounters_cal (s : State) : (clearCounters s).cal = s.cal := rfl
@[simp] theorem clearCounters_frame (s : State) : (clearCounters s).frame = s.frame := rfl
@[simp] theorem clearCounters_seg (s : State) : (clearCounters s).seg = s.seg := rfl
@[simp] theorem clearCounters_dur (s : State) : (clearCounters s).dur = s.dur := rfl
@[simp] theorem clearCounters_phase (s : State) : (clearCounters s).phase = s.phase := rfl
@[simp] theorem clearCounters_sync1 (s : State) : (clearCounters s).sync1 = s.sync1 := rfl
@[simp] theorem clearCounters_sync2 (s : State) : (clearCounters s).sync2 = s.sync2 := rfl
@[simp] theorem clearCounters_pre (s : State) : (clearCounters s).pre = s.pre := rfl
@[simp] theorem clearCounters_us (s : State) : (clearCounters s).us = s.us := rfl
@[simp] theorem clearCounters_tStart (s : State) : (clearCounters s).tStart = s.tStart := rfl
@[simp] theorem clearCounters_tFall (s : State) : (clearCounters s).tFall = s.tFall := rfl
@[simp] theorem clearCounters_selRemain (s : State) : (clearCounters s).selRemain = s.selRemain := rfl
@[simp] theorem clearCounters_curOp (s : State) : (clearCounters s).curOp = s.curOp := rfl
@[simp] theorem clearCounters_curS (s : State) : (clearCounters s).curS = s.curS := rfl
@[simp] theorem clearCounters_params (s : State) : (clearCounters s).params = s.params := rfl
@[simp] theorem clearCounters_host (s : State) : (clearCounters s).host = s.host := rfl
@[simp] theorem clearCounters_rxWave (s : State) : (clearCounters s).rxWave = s.rxWave := rfl
@[simp] theorem clearCounters_edge (s : State) : (clearCounters s).edge = s.edge := rfl

/-! `setResult` -/

@[simp] theorem setResult_toEn (r : ResultCode) (s : State) : (setResult r s).toEn = s.toEn := rfl
@[simp] theorem setResult_ie (r : ResultCode) (s : State) : (setResult r s).ie = s.ie := rfl
@[simp] theorem setResult_tx (r : ResultCode) (s : State) : (setResult r s).tx = s.tx := rfl
@[simp] theorem setResult_busy (r : ResultCode) (s : State) : (setResult r s).busy = s.busy := rfl
@[simp] theorem setResult_done (r : ResultCode) (s : State) : (setResult r s).done = s.done := rfl
@[simp] theorem setResult_ign (r : ResultCode) (s : State) : (setResult r s).ign = s.ign := rfl
@[simp] theorem setResult_result (r : ResultCode) (s : State) : (setResult r s).result = r := rfl
@[simp] theorem setResult_timeoutUs (r : ResultCode) (s : State) : (setResult r s).timeoutUs = s.timeoutUs := rfl
@[simp] theorem setResult_selOffUs (r : ResultCode) (s : State) : (setResult r s).selOffUs = s.selOffUs := rfl
@[simp] theorem setResult_selOnUs (r : ResultCode) (s : State) : (setResult r s).selOnUs = s.selOnUs := rfl
@[simp] theorem setResult_levelNum (r : ResultCode) (s : State) : (setResult r s).levelNum = s.levelNum := rfl
@[simp] theorem setResult_levelDen (r : ResultCode) (s : State) : (setResult r s).levelDen = s.levelDen := rfl
@[simp] theorem setResult_cntNoresp (r : ResultCode) (s : State) : (setResult r s).cntNoresp = s.cntNoresp := rfl
@[simp] theorem setResult_cntPreamble (r : ResultCode) (s : State) : (setResult r s).cntPreamble
    = s.cntPreamble := rfl
@[simp] theorem setResult_cntChecksum (r : ResultCode) (s : State) : (setResult r s).cntChecksum
    = s.cntChecksum := rfl
@[simp] theorem setResult_durCount (r : ResultCode) (s : State) : (setResult r s).durCount = s.durCount := rfl
@[simp] theorem setResult_frameCount (r : ResultCode) (s : State) : (setResult r s).frameCount = s.frameCount := rfl
@[simp] theorem setResult_segCount (r : ResultCode) (s : State) : (setResult r s).segCount = s.segCount := rfl
@[simp] theorem setResult_cal (r : ResultCode) (s : State) : (setResult r s).cal = s.cal := rfl
@[simp] theorem setResult_frame (r : ResultCode) (s : State) : (setResult r s).frame = s.frame := rfl
@[simp] theorem setResult_seg (r : ResultCode) (s : State) : (setResult r s).seg = s.seg := rfl
@[simp] theorem setResult_dur (r : ResultCode) (s : State) : (setResult r s).dur = s.dur := rfl
@[simp] theorem setResult_phase (r : ResultCode) (s : State) : (setResult r s).phase = s.phase := rfl
@[simp] theorem setResult_sync1 (r : ResultCode) (s : State) : (setResult r s).sync1 = s.sync1 := rfl
@[simp] theorem setResult_sync2 (r : ResultCode) (s : State) : (setResult r s).sync2 = s.sync2 := rfl
@[simp] theorem setResult_pre (r : ResultCode) (s : State) : (setResult r s).pre = s.pre := rfl
@[simp] theorem setResult_us (r : ResultCode) (s : State) : (setResult r s).us = s.us := rfl
@[simp] theorem setResult_tStart (r : ResultCode) (s : State) : (setResult r s).tStart = s.tStart := rfl
@[simp] theorem setResult_tFall (r : ResultCode) (s : State) : (setResult r s).tFall = s.tFall := rfl
@[simp] theorem setResult_selRemain (r : ResultCode) (s : State) : (setResult r s).selRemain = s.selRemain := rfl
@[simp] theorem setResult_curOp (r : ResultCode) (s : State) : (setResult r s).curOp = s.curOp := rfl
@[simp] theorem setResult_curS (r : ResultCode) (s : State) : (setResult r s).curS = s.curS := rfl
@[simp] theorem setResult_params (r : ResultCode) (s : State) : (setResult r s).params = s.params := rfl
@[simp] theorem setResult_host (r : ResultCode) (s : State) : (setResult r s).host = s.host := rfl
@[simp] theorem setResult_rxWave (r : ResultCode) (s : State) : (setResult r s).rxWave = s.rxWave := rfl
@[simp] theorem setResult_edge (r : ResultCode) (s : State) : (setResult r s).edge = s.edge := rfl

/-! `dropSegments` -/

@[simp] theorem dropSegments_toEn (s : State) : (dropSegments s).toEn = s.toEn := rfl
@[simp] theorem dropSegments_ie (s : State) : (dropSegments s).ie = s.ie := rfl
@[simp] theorem dropSegments_tx (s : State) : (dropSegments s).tx = s.tx := rfl
@[simp] theorem dropSegments_busy (s : State) : (dropSegments s).busy = s.busy := rfl
@[simp] theorem dropSegments_done (s : State) : (dropSegments s).done = s.done := rfl
@[simp] theorem dropSegments_ign (s : State) : (dropSegments s).ign = s.ign := rfl
@[simp] theorem dropSegments_result (s : State) : (dropSegments s).result = s.result := rfl
@[simp] theorem dropSegments_timeoutUs (s : State) : (dropSegments s).timeoutUs = s.timeoutUs := rfl
@[simp] theorem dropSegments_selOffUs (s : State) : (dropSegments s).selOffUs = s.selOffUs := rfl
@[simp] theorem dropSegments_selOnUs (s : State) : (dropSegments s).selOnUs = s.selOnUs := rfl
@[simp] theorem dropSegments_levelNum (s : State) : (dropSegments s).levelNum = s.levelNum := rfl
@[simp] theorem dropSegments_levelDen (s : State) : (dropSegments s).levelDen = s.levelDen := rfl
@[simp] theorem dropSegments_cntNoresp (s : State) : (dropSegments s).cntNoresp = s.cntNoresp := rfl
@[simp] theorem dropSegments_cntPreamble (s : State) : (dropSegments s).cntPreamble = s.cntPreamble := rfl
@[simp] theorem dropSegments_cntChecksum (s : State) : (dropSegments s).cntChecksum = s.cntChecksum := rfl
@[simp] theorem dropSegments_durCount (s : State) : (dropSegments s).durCount = s.durCount := rfl
@[simp] theorem dropSegments_frameCount (s : State) : (dropSegments s).frameCount = s.frameCount := rfl
@[simp] theorem dropSegments_segCount (s : State) : (dropSegments s).segCount = 0 := rfl
@[simp] theorem dropSegments_cal (s : State) : (dropSegments s).cal = s.cal := rfl
@[simp] theorem dropSegments_frame (s : State) : (dropSegments s).frame = s.frame := rfl
@[simp] theorem dropSegments_seg (s : State) : (dropSegments s).seg = s.seg := rfl
@[simp] theorem dropSegments_dur (s : State) : (dropSegments s).dur = s.dur := rfl
@[simp] theorem dropSegments_phase (s : State) : (dropSegments s).phase = s.phase := rfl
@[simp] theorem dropSegments_sync1 (s : State) : (dropSegments s).sync1 = s.sync1 := rfl
@[simp] theorem dropSegments_sync2 (s : State) : (dropSegments s).sync2 = s.sync2 := rfl
@[simp] theorem dropSegments_pre (s : State) : (dropSegments s).pre = s.pre := rfl
@[simp] theorem dropSegments_us (s : State) : (dropSegments s).us = s.us := rfl
@[simp] theorem dropSegments_tStart (s : State) : (dropSegments s).tStart = s.tStart := rfl
@[simp] theorem dropSegments_tFall (s : State) : (dropSegments s).tFall = s.tFall := rfl
@[simp] theorem dropSegments_selRemain (s : State) : (dropSegments s).selRemain = s.selRemain := rfl
@[simp] theorem dropSegments_curOp (s : State) : (dropSegments s).curOp = s.curOp := rfl
@[simp] theorem dropSegments_curS (s : State) : (dropSegments s).curS = s.curS := rfl
@[simp] theorem dropSegments_params (s : State) : (dropSegments s).params = s.params := rfl
@[simp] theorem dropSegments_host (s : State) : (dropSegments s).host = s.host := rfl
@[simp] theorem dropSegments_rxWave (s : State) : (dropSegments s).rxWave = s.rxWave := rfl
@[simp] theorem dropSegments_edge (s : State) : (dropSegments s).edge = s.edge := rfl

/-! `writeFrame` -/

@[simp] theorem writeFrame_toEn (b : Vector Byte 12) (s : State) : (writeFrame b s).toEn = s.toEn := rfl
@[simp] theorem writeFrame_ie (b : Vector Byte 12) (s : State) : (writeFrame b s).ie = s.ie := rfl
@[simp] theorem writeFrame_tx (b : Vector Byte 12) (s : State) : (writeFrame b s).tx = s.tx := rfl
@[simp] theorem writeFrame_busy (b : Vector Byte 12) (s : State) : (writeFrame b s).busy = s.busy := rfl
@[simp] theorem writeFrame_done (b : Vector Byte 12) (s : State) : (writeFrame b s).done = s.done := rfl
@[simp] theorem writeFrame_ign (b : Vector Byte 12) (s : State) : (writeFrame b s).ign = s.ign := rfl
@[simp] theorem writeFrame_result (b : Vector Byte 12) (s : State) : (writeFrame b s).result = s.result := rfl
@[simp] theorem writeFrame_timeoutUs (b : Vector Byte 12) (s : State) : (writeFrame b s).timeoutUs
    = s.timeoutUs := rfl
@[simp] theorem writeFrame_selOffUs (b : Vector Byte 12) (s : State) : (writeFrame b s).selOffUs = s.selOffUs := rfl
@[simp] theorem writeFrame_selOnUs (b : Vector Byte 12) (s : State) : (writeFrame b s).selOnUs = s.selOnUs := rfl
@[simp] theorem writeFrame_levelNum (b : Vector Byte 12) (s : State) : (writeFrame b s).levelNum = s.levelNum := rfl
@[simp] theorem writeFrame_levelDen (b : Vector Byte 12) (s : State) : (writeFrame b s).levelDen = s.levelDen := rfl
@[simp] theorem writeFrame_cntNoresp (b : Vector Byte 12) (s : State) : (writeFrame b s).cntNoresp
    = s.cntNoresp := rfl
@[simp] theorem writeFrame_cntPreamble (b : Vector Byte 12) (s : State) : (writeFrame b s).cntPreamble
    = s.cntPreamble := rfl
@[simp] theorem writeFrame_cntChecksum (b : Vector Byte 12) (s : State) : (writeFrame b s).cntChecksum
    = s.cntChecksum := rfl
@[simp] theorem writeFrame_durCount (b : Vector Byte 12) (s : State) : (writeFrame b s).durCount = s.durCount := rfl
@[simp] theorem writeFrame_frameCount (b : Vector Byte 12) (s : State) : (writeFrame b s).frameCount = 12 := rfl
@[simp] theorem writeFrame_segCount (b : Vector Byte 12) (s : State) : (writeFrame b s).segCount = s.segCount := rfl
@[simp] theorem writeFrame_cal (b : Vector Byte 12) (s : State) : (writeFrame b s).cal = s.cal := rfl
@[simp] theorem writeFrame_frame (b : Vector Byte 12) (s : State) : (writeFrame b s).frame = b := rfl
@[simp] theorem writeFrame_seg (b : Vector Byte 12) (s : State) : (writeFrame b s).seg = s.seg := rfl
@[simp] theorem writeFrame_dur (b : Vector Byte 12) (s : State) : (writeFrame b s).dur = s.dur := rfl
@[simp] theorem writeFrame_phase (b : Vector Byte 12) (s : State) : (writeFrame b s).phase = s.phase := rfl
@[simp] theorem writeFrame_sync1 (b : Vector Byte 12) (s : State) : (writeFrame b s).sync1 = s.sync1 := rfl
@[simp] theorem writeFrame_sync2 (b : Vector Byte 12) (s : State) : (writeFrame b s).sync2 = s.sync2 := rfl
@[simp] theorem writeFrame_pre (b : Vector Byte 12) (s : State) : (writeFrame b s).pre = s.pre := rfl
@[simp] theorem writeFrame_us (b : Vector Byte 12) (s : State) : (writeFrame b s).us = s.us := rfl
@[simp] theorem writeFrame_tStart (b : Vector Byte 12) (s : State) : (writeFrame b s).tStart = s.tStart := rfl
@[simp] theorem writeFrame_tFall (b : Vector Byte 12) (s : State) : (writeFrame b s).tFall = s.tFall := rfl
@[simp] theorem writeFrame_selRemain (b : Vector Byte 12) (s : State) : (writeFrame b s).selRemain
    = s.selRemain := rfl
@[simp] theorem writeFrame_curOp (b : Vector Byte 12) (s : State) : (writeFrame b s).curOp = s.curOp := rfl
@[simp] theorem writeFrame_curS (b : Vector Byte 12) (s : State) : (writeFrame b s).curS = s.curS := rfl
@[simp] theorem writeFrame_params (b : Vector Byte 12) (s : State) : (writeFrame b s).params = s.params := rfl
@[simp] theorem writeFrame_host (b : Vector Byte 12) (s : State) : (writeFrame b s).host = s.host := rfl
@[simp] theorem writeFrame_rxWave (b : Vector Byte 12) (s : State) : (writeFrame b s).rxWave = s.rxWave := rfl
@[simp] theorem writeFrame_edge (b : Vector Byte 12) (s : State) : (writeFrame b s).edge = s.edge := rfl

/-! `dropFrame` -/

@[simp] theorem dropFrame_toEn (s : State) : (dropFrame s).toEn = s.toEn := rfl
@[simp] theorem dropFrame_ie (s : State) : (dropFrame s).ie = s.ie := rfl
@[simp] theorem dropFrame_tx (s : State) : (dropFrame s).tx = s.tx := rfl
@[simp] theorem dropFrame_busy (s : State) : (dropFrame s).busy = s.busy := rfl
@[simp] theorem dropFrame_done (s : State) : (dropFrame s).done = s.done := rfl
@[simp] theorem dropFrame_ign (s : State) : (dropFrame s).ign = s.ign := rfl
@[simp] theorem dropFrame_result (s : State) : (dropFrame s).result = s.result := rfl
@[simp] theorem dropFrame_timeoutUs (s : State) : (dropFrame s).timeoutUs = s.timeoutUs := rfl
@[simp] theorem dropFrame_selOffUs (s : State) : (dropFrame s).selOffUs = s.selOffUs := rfl
@[simp] theorem dropFrame_selOnUs (s : State) : (dropFrame s).selOnUs = s.selOnUs := rfl
@[simp] theorem dropFrame_levelNum (s : State) : (dropFrame s).levelNum = s.levelNum := rfl
@[simp] theorem dropFrame_levelDen (s : State) : (dropFrame s).levelDen = s.levelDen := rfl
@[simp] theorem dropFrame_cntNoresp (s : State) : (dropFrame s).cntNoresp = s.cntNoresp := rfl
@[simp] theorem dropFrame_cntPreamble (s : State) : (dropFrame s).cntPreamble = s.cntPreamble := rfl
@[simp] theorem dropFrame_cntChecksum (s : State) : (dropFrame s).cntChecksum = s.cntChecksum := rfl
@[simp] theorem dropFrame_durCount (s : State) : (dropFrame s).durCount = s.durCount := rfl
@[simp] theorem dropFrame_frameCount (s : State) : (dropFrame s).frameCount = 0 := rfl
@[simp] theorem dropFrame_segCount (s : State) : (dropFrame s).segCount = s.segCount := rfl
@[simp] theorem dropFrame_cal (s : State) : (dropFrame s).cal = s.cal := rfl
@[simp] theorem dropFrame_frame (s : State) : (dropFrame s).frame = s.frame := rfl
@[simp] theorem dropFrame_seg (s : State) : (dropFrame s).seg = s.seg := rfl
@[simp] theorem dropFrame_dur (s : State) : (dropFrame s).dur = s.dur := rfl
@[simp] theorem dropFrame_phase (s : State) : (dropFrame s).phase = s.phase := rfl
@[simp] theorem dropFrame_sync1 (s : State) : (dropFrame s).sync1 = s.sync1 := rfl
@[simp] theorem dropFrame_sync2 (s : State) : (dropFrame s).sync2 = s.sync2 := rfl
@[simp] theorem dropFrame_pre (s : State) : (dropFrame s).pre = s.pre := rfl
@[simp] theorem dropFrame_us (s : State) : (dropFrame s).us = s.us := rfl
@[simp] theorem dropFrame_tStart (s : State) : (dropFrame s).tStart = s.tStart := rfl
@[simp] theorem dropFrame_tFall (s : State) : (dropFrame s).tFall = s.tFall := rfl
@[simp] theorem dropFrame_selRemain (s : State) : (dropFrame s).selRemain = s.selRemain := rfl
@[simp] theorem dropFrame_curOp (s : State) : (dropFrame s).curOp = s.curOp := rfl
@[simp] theorem dropFrame_curS (s : State) : (dropFrame s).curS = s.curS := rfl
@[simp] theorem dropFrame_params (s : State) : (dropFrame s).params = s.params := rfl
@[simp] theorem dropFrame_host (s : State) : (dropFrame s).host = s.host := rfl
@[simp] theorem dropFrame_rxWave (s : State) : (dropFrame s).rxWave = s.rxWave := rfl
@[simp] theorem dropFrame_edge (s : State) : (dropFrame s).edge = s.edge := rfl

/-! `writeSegments` -/

@[simp] theorem writeSegments_toEn (l : List Byte) (s : State) : (writeSegments l s).toEn = s.toEn := rfl
@[simp] theorem writeSegments_ie (l : List Byte) (s : State) : (writeSegments l s).ie = s.ie := rfl
@[simp] theorem writeSegments_tx (l : List Byte) (s : State) : (writeSegments l s).tx = s.tx := rfl
@[simp] theorem writeSegments_busy (l : List Byte) (s : State) : (writeSegments l s).busy = s.busy := rfl
@[simp] theorem writeSegments_done (l : List Byte) (s : State) : (writeSegments l s).done = s.done := rfl
@[simp] theorem writeSegments_ign (l : List Byte) (s : State) : (writeSegments l s).ign = s.ign := rfl
@[simp] theorem writeSegments_result (l : List Byte) (s : State) : (writeSegments l s).result = s.result := rfl
@[simp] theorem writeSegments_timeoutUs (l : List Byte) (s : State) : (writeSegments l s).timeoutUs
    = s.timeoutUs := rfl
@[simp] theorem writeSegments_selOffUs (l : List Byte) (s : State) : (writeSegments l s).selOffUs = s.selOffUs := rfl
@[simp] theorem writeSegments_selOnUs (l : List Byte) (s : State) : (writeSegments l s).selOnUs = s.selOnUs := rfl
@[simp] theorem writeSegments_levelNum (l : List Byte) (s : State) : (writeSegments l s).levelNum = s.levelNum := rfl
@[simp] theorem writeSegments_levelDen (l : List Byte) (s : State) : (writeSegments l s).levelDen = s.levelDen := rfl
@[simp] theorem writeSegments_cntNoresp (l : List Byte) (s : State) : (writeSegments l s).cntNoresp
    = s.cntNoresp := rfl
@[simp] theorem writeSegments_cntPreamble (l : List Byte) (s : State) : (writeSegments l s).cntPreamble
    = s.cntPreamble := rfl
@[simp] theorem writeSegments_cntChecksum (l : List Byte) (s : State) : (writeSegments l s).cntChecksum
    = s.cntChecksum := rfl
@[simp] theorem writeSegments_durCount (l : List Byte) (s : State) : (writeSegments l s).durCount = s.durCount := rfl
@[simp] theorem writeSegments_frameCount (l : List Byte) (s : State) : (writeSegments l s).frameCount
    = s.frameCount := rfl
@[simp] theorem writeSegments_segCount (l : List Byte) (s : State) : (writeSegments l s).segCount
    = BitVec.ofNat 4 l.length := rfl
@[simp] theorem writeSegments_cal (l : List Byte) (s : State) : (writeSegments l s).cal = s.cal := rfl
@[simp] theorem writeSegments_frame (l : List Byte) (s : State) : (writeSegments l s).frame = s.frame := rfl
@[simp] theorem writeSegments_seg (l : List Byte) (s : State) : (writeSegments l s).seg = overlay l s.seg := rfl
@[simp] theorem writeSegments_dur (l : List Byte) (s : State) : (writeSegments l s).dur = s.dur := rfl
@[simp] theorem writeSegments_phase (l : List Byte) (s : State) : (writeSegments l s).phase = s.phase := rfl
@[simp] theorem writeSegments_sync1 (l : List Byte) (s : State) : (writeSegments l s).sync1 = s.sync1 := rfl
@[simp] theorem writeSegments_sync2 (l : List Byte) (s : State) : (writeSegments l s).sync2 = s.sync2 := rfl
@[simp] theorem writeSegments_pre (l : List Byte) (s : State) : (writeSegments l s).pre = s.pre := rfl
@[simp] theorem writeSegments_us (l : List Byte) (s : State) : (writeSegments l s).us = s.us := rfl
@[simp] theorem writeSegments_tStart (l : List Byte) (s : State) : (writeSegments l s).tStart = s.tStart := rfl
@[simp] theorem writeSegments_tFall (l : List Byte) (s : State) : (writeSegments l s).tFall = s.tFall := rfl
@[simp] theorem writeSegments_selRemain (l : List Byte) (s : State) : (writeSegments l s).selRemain
    = s.selRemain := rfl
@[simp] theorem writeSegments_curOp (l : List Byte) (s : State) : (writeSegments l s).curOp = s.curOp := rfl
@[simp] theorem writeSegments_curS (l : List Byte) (s : State) : (writeSegments l s).curS = s.curS := rfl
@[simp] theorem writeSegments_params (l : List Byte) (s : State) : (writeSegments l s).params = s.params := rfl
@[simp] theorem writeSegments_host (l : List Byte) (s : State) : (writeSegments l s).host = s.host := rfl
@[simp] theorem writeSegments_rxWave (l : List Byte) (s : State) : (writeSegments l s).rxWave = s.rxWave := rfl
@[simp] theorem writeSegments_edge (l : List Byte) (s : State) : (writeSegments l s).edge = s.edge := rfl

/-! `writeLevel` -/

@[simp] theorem writeLevel_toEn (n d : Nat) (s : State) : (writeLevel n d s).toEn = s.toEn := rfl
@[simp] theorem writeLevel_ie (n d : Nat) (s : State) : (writeLevel n d s).ie = s.ie := rfl
@[simp] theorem writeLevel_tx (n d : Nat) (s : State) : (writeLevel n d s).tx = s.tx := rfl
@[simp] theorem writeLevel_busy (n d : Nat) (s : State) : (writeLevel n d s).busy = s.busy := rfl
@[simp] theorem writeLevel_done (n d : Nat) (s : State) : (writeLevel n d s).done = s.done := rfl
@[simp] theorem writeLevel_ign (n d : Nat) (s : State) : (writeLevel n d s).ign = s.ign := rfl
@[simp] theorem writeLevel_result (n d : Nat) (s : State) : (writeLevel n d s).result = s.result := rfl
@[simp] theorem writeLevel_timeoutUs (n d : Nat) (s : State) : (writeLevel n d s).timeoutUs = s.timeoutUs := rfl
@[simp] theorem writeLevel_selOffUs (n d : Nat) (s : State) : (writeLevel n d s).selOffUs = s.selOffUs := rfl
@[simp] theorem writeLevel_selOnUs (n d : Nat) (s : State) : (writeLevel n d s).selOnUs = s.selOnUs := rfl
@[simp] theorem writeLevel_levelNum (n d : Nat) (s : State) : (writeLevel n d s).levelNum = BitVec.ofNat 32 n := rfl
@[simp] theorem writeLevel_levelDen (n d : Nat) (s : State) : (writeLevel n d s).levelDen = BitVec.ofNat 32 d := rfl
@[simp] theorem writeLevel_cntNoresp (n d : Nat) (s : State) : (writeLevel n d s).cntNoresp = s.cntNoresp := rfl
@[simp] theorem writeLevel_cntPreamble (n d : Nat) (s : State) : (writeLevel n d s).cntPreamble = s.cntPreamble := rfl
@[simp] theorem writeLevel_cntChecksum (n d : Nat) (s : State) : (writeLevel n d s).cntChecksum = s.cntChecksum := rfl
@[simp] theorem writeLevel_durCount (n d : Nat) (s : State) : (writeLevel n d s).durCount = s.durCount := rfl
@[simp] theorem writeLevel_frameCount (n d : Nat) (s : State) : (writeLevel n d s).frameCount = s.frameCount := rfl
@[simp] theorem writeLevel_segCount (n d : Nat) (s : State) : (writeLevel n d s).segCount = s.segCount := rfl
@[simp] theorem writeLevel_cal (n d : Nat) (s : State) : (writeLevel n d s).cal = s.cal := rfl
@[simp] theorem writeLevel_frame (n d : Nat) (s : State) : (writeLevel n d s).frame = s.frame := rfl
@[simp] theorem writeLevel_seg (n d : Nat) (s : State) : (writeLevel n d s).seg = s.seg := rfl
@[simp] theorem writeLevel_dur (n d : Nat) (s : State) : (writeLevel n d s).dur = s.dur := rfl
@[simp] theorem writeLevel_phase (n d : Nat) (s : State) : (writeLevel n d s).phase = s.phase := rfl
@[simp] theorem writeLevel_sync1 (n d : Nat) (s : State) : (writeLevel n d s).sync1 = s.sync1 := rfl
@[simp] theorem writeLevel_sync2 (n d : Nat) (s : State) : (writeLevel n d s).sync2 = s.sync2 := rfl
@[simp] theorem writeLevel_pre (n d : Nat) (s : State) : (writeLevel n d s).pre = s.pre := rfl
@[simp] theorem writeLevel_us (n d : Nat) (s : State) : (writeLevel n d s).us = s.us := rfl
@[simp] theorem writeLevel_tStart (n d : Nat) (s : State) : (writeLevel n d s).tStart = s.tStart := rfl
@[simp] theorem writeLevel_tFall (n d : Nat) (s : State) : (writeLevel n d s).tFall = s.tFall := rfl
@[simp] theorem writeLevel_selRemain (n d : Nat) (s : State) : (writeLevel n d s).selRemain = s.selRemain := rfl
@[simp] theorem writeLevel_curOp (n d : Nat) (s : State) : (writeLevel n d s).curOp = s.curOp := rfl
@[simp] theorem writeLevel_curS (n d : Nat) (s : State) : (writeLevel n d s).curS = s.curS := rfl
@[simp] theorem writeLevel_params (n d : Nat) (s : State) : (writeLevel n d s).params = s.params := rfl
@[simp] theorem writeLevel_host (n d : Nat) (s : State) : (writeLevel n d s).host = s.host := rfl
@[simp] theorem writeLevel_rxWave (n d : Nat) (s : State) : (writeLevel n d s).rxWave = s.rxWave := rfl
@[simp] theorem writeLevel_edge (n d : Nat) (s : State) : (writeLevel n d s).edge = s.edge := rfl

/-! `turnOn` -/

@[simp] theorem turnOn_toEn (s t : State) : (turnOn s t).toEn = t.toEn := rfl
@[simp] theorem turnOn_ie (s t : State) : (turnOn s t).ie = t.ie := rfl
@[simp] theorem turnOn_tx (s t : State) : (turnOn s t).tx = true := rfl
@[simp] theorem turnOn_busy (s t : State) : (turnOn s t).busy = t.busy := rfl
@[simp] theorem turnOn_done (s t : State) : (turnOn s t).done = t.done := rfl
@[simp] theorem turnOn_ign (s t : State) : (turnOn s t).ign = t.ign := rfl
@[simp] theorem turnOn_result (s t : State) : (turnOn s t).result = t.result := rfl
@[simp] theorem turnOn_timeoutUs (s t : State) : (turnOn s t).timeoutUs = t.timeoutUs := rfl
@[simp] theorem turnOn_selOffUs (s t : State) : (turnOn s t).selOffUs = t.selOffUs := rfl
@[simp] theorem turnOn_selOnUs (s t : State) : (turnOn s t).selOnUs = t.selOnUs := rfl
@[simp] theorem turnOn_levelNum (s t : State) : (turnOn s t).levelNum = t.levelNum := rfl
@[simp] theorem turnOn_levelDen (s t : State) : (turnOn s t).levelDen = t.levelDen := rfl
@[simp] theorem turnOn_cntNoresp (s t : State) : (turnOn s t).cntNoresp = t.cntNoresp := rfl
@[simp] theorem turnOn_cntPreamble (s t : State) : (turnOn s t).cntPreamble = t.cntPreamble := rfl
@[simp] theorem turnOn_cntChecksum (s t : State) : (turnOn s t).cntChecksum = t.cntChecksum := rfl
@[simp] theorem turnOn_durCount (s t : State) : (turnOn s t).durCount = t.durCount := rfl
@[simp] theorem turnOn_frameCount (s t : State) : (turnOn s t).frameCount = t.frameCount := rfl
@[simp] theorem turnOn_segCount (s t : State) : (turnOn s t).segCount = t.segCount := rfl
@[simp] theorem turnOn_cal (s t : State) : (turnOn s t).cal = t.cal := rfl
@[simp] theorem turnOn_frame (s t : State) : (turnOn s t).frame = t.frame := rfl
@[simp] theorem turnOn_seg (s t : State) : (turnOn s t).seg = t.seg := rfl
@[simp] theorem turnOn_dur (s t : State) : (turnOn s t).dur = t.dur := rfl
@[simp] theorem turnOn_phase (s t : State) : (turnOn s t).phase = .selOn := rfl
@[simp] theorem turnOn_sync1 (s t : State) : (turnOn s t).sync1 = t.sync1 := rfl
@[simp] theorem turnOn_sync2 (s t : State) : (turnOn s t).sync2 = t.sync2 := rfl
@[simp] theorem turnOn_pre (s t : State) : (turnOn s t).pre = t.pre := rfl
@[simp] theorem turnOn_us (s t : State) : (turnOn s t).us = t.us := rfl
@[simp] theorem turnOn_tStart (s t : State) : (turnOn s t).tStart = s.us := rfl
@[simp] theorem turnOn_tFall (s t : State) : (turnOn s t).tFall = t.tFall := rfl
@[simp] theorem turnOn_selRemain (s t : State) : (turnOn s t).selRemain = t.selRemain := rfl
@[simp] theorem turnOn_curOp (s t : State) : (turnOn s t).curOp = t.curOp := rfl
@[simp] theorem turnOn_curS (s t : State) : (turnOn s t).curS = t.curS := rfl
@[simp] theorem turnOn_params (s t : State) : (turnOn s t).params = t.params := rfl
@[simp] theorem turnOn_host (s t : State) : (turnOn s t).host = t.host := rfl
@[simp] theorem turnOn_rxWave (s t : State) : (turnOn s t).rxWave = t.rxWave := rfl
@[simp] theorem turnOn_edge (s t : State) : (turnOn s t).edge = t.edge := rfl

/-! `clearRemain` -/

@[simp] theorem clearRemain_toEn (s : State) : (clearRemain s).toEn = s.toEn := rfl
@[simp] theorem clearRemain_ie (s : State) : (clearRemain s).ie = s.ie := rfl
@[simp] theorem clearRemain_tx (s : State) : (clearRemain s).tx = s.tx := rfl
@[simp] theorem clearRemain_busy (s : State) : (clearRemain s).busy = s.busy := rfl
@[simp] theorem clearRemain_done (s : State) : (clearRemain s).done = s.done := rfl
@[simp] theorem clearRemain_ign (s : State) : (clearRemain s).ign = s.ign := rfl
@[simp] theorem clearRemain_result (s : State) : (clearRemain s).result = s.result := rfl
@[simp] theorem clearRemain_timeoutUs (s : State) : (clearRemain s).timeoutUs = s.timeoutUs := rfl
@[simp] theorem clearRemain_selOffUs (s : State) : (clearRemain s).selOffUs = s.selOffUs := rfl
@[simp] theorem clearRemain_selOnUs (s : State) : (clearRemain s).selOnUs = s.selOnUs := rfl
@[simp] theorem clearRemain_levelNum (s : State) : (clearRemain s).levelNum = s.levelNum := rfl
@[simp] theorem clearRemain_levelDen (s : State) : (clearRemain s).levelDen = s.levelDen := rfl
@[simp] theorem clearRemain_cntNoresp (s : State) : (clearRemain s).cntNoresp = s.cntNoresp := rfl
@[simp] theorem clearRemain_cntPreamble (s : State) : (clearRemain s).cntPreamble = s.cntPreamble := rfl
@[simp] theorem clearRemain_cntChecksum (s : State) : (clearRemain s).cntChecksum = s.cntChecksum := rfl
@[simp] theorem clearRemain_durCount (s : State) : (clearRemain s).durCount = s.durCount := rfl
@[simp] theorem clearRemain_frameCount (s : State) : (clearRemain s).frameCount = s.frameCount := rfl
@[simp] theorem clearRemain_segCount (s : State) : (clearRemain s).segCount = s.segCount := rfl
@[simp] theorem clearRemain_cal (s : State) : (clearRemain s).cal = s.cal := rfl
@[simp] theorem clearRemain_frame (s : State) : (clearRemain s).frame = s.frame := rfl
@[simp] theorem clearRemain_seg (s : State) : (clearRemain s).seg = s.seg := rfl
@[simp] theorem clearRemain_dur (s : State) : (clearRemain s).dur = s.dur := rfl
@[simp] theorem clearRemain_phase (s : State) : (clearRemain s).phase = s.phase := rfl
@[simp] theorem clearRemain_sync1 (s : State) : (clearRemain s).sync1 = s.sync1 := rfl
@[simp] theorem clearRemain_sync2 (s : State) : (clearRemain s).sync2 = s.sync2 := rfl
@[simp] theorem clearRemain_pre (s : State) : (clearRemain s).pre = s.pre := rfl
@[simp] theorem clearRemain_us (s : State) : (clearRemain s).us = s.us := rfl
@[simp] theorem clearRemain_tStart (s : State) : (clearRemain s).tStart = s.tStart := rfl
@[simp] theorem clearRemain_tFall (s : State) : (clearRemain s).tFall = s.tFall := rfl
@[simp] theorem clearRemain_selRemain (s : State) : (clearRemain s).selRemain = 0 := rfl
@[simp] theorem clearRemain_curOp (s : State) : (clearRemain s).curOp = s.curOp := rfl
@[simp] theorem clearRemain_curS (s : State) : (clearRemain s).curS = s.curS := rfl
@[simp] theorem clearRemain_params (s : State) : (clearRemain s).params = s.params := rfl
@[simp] theorem clearRemain_host (s : State) : (clearRemain s).host = s.host := rfl
@[simp] theorem clearRemain_rxWave (s : State) : (clearRemain s).rxWave = s.rxWave := rfl
@[simp] theorem clearRemain_edge (s : State) : (clearRemain s).edge = s.edge := rfl

/-! `startPulse` -/

@[simp] theorem startPulse_toEn (s t : State) : (startPulse s t).toEn = t.toEn := rfl
@[simp] theorem startPulse_ie (s t : State) : (startPulse s t).ie = t.ie := rfl
@[simp] theorem startPulse_tx (s t : State) : (startPulse s t).tx = t.tx := rfl
@[simp] theorem startPulse_busy (s t : State) : (startPulse s t).busy = t.busy := rfl
@[simp] theorem startPulse_done (s t : State) : (startPulse s t).done = t.done := rfl
@[simp] theorem startPulse_ign (s t : State) : (startPulse s t).ign = t.ign := rfl
@[simp] theorem startPulse_result (s t : State) : (startPulse s t).result = t.result := rfl
@[simp] theorem startPulse_timeoutUs (s t : State) : (startPulse s t).timeoutUs = t.timeoutUs := rfl
@[simp] theorem startPulse_selOffUs (s t : State) : (startPulse s t).selOffUs = t.selOffUs := rfl
@[simp] theorem startPulse_selOnUs (s t : State) : (startPulse s t).selOnUs = t.selOnUs := rfl
@[simp] theorem startPulse_levelNum (s t : State) : (startPulse s t).levelNum = t.levelNum := rfl
@[simp] theorem startPulse_levelDen (s t : State) : (startPulse s t).levelDen = t.levelDen := rfl
@[simp] theorem startPulse_cntNoresp (s t : State) : (startPulse s t).cntNoresp = t.cntNoresp := rfl
@[simp] theorem startPulse_cntPreamble (s t : State) : (startPulse s t).cntPreamble = t.cntPreamble := rfl
@[simp] theorem startPulse_cntChecksum (s t : State) : (startPulse s t).cntChecksum = t.cntChecksum := rfl
@[simp] theorem startPulse_durCount (s t : State) : (startPulse s t).durCount = t.durCount := rfl
@[simp] theorem startPulse_frameCount (s t : State) : (startPulse s t).frameCount = t.frameCount := rfl
@[simp] theorem startPulse_segCount (s t : State) : (startPulse s t).segCount = t.segCount := rfl
@[simp] theorem startPulse_cal (s t : State) : (startPulse s t).cal = t.cal := rfl
@[simp] theorem startPulse_frame (s t : State) : (startPulse s t).frame = t.frame := rfl
@[simp] theorem startPulse_seg (s t : State) : (startPulse s t).seg = t.seg := rfl
@[simp] theorem startPulse_dur (s t : State) : (startPulse s t).dur = t.dur := rfl
@[simp] theorem startPulse_phase (s t : State) : (startPulse s t).phase = .capLow := rfl
@[simp] theorem startPulse_sync1 (s t : State) : (startPulse s t).sync1 = t.sync1 := rfl
@[simp] theorem startPulse_sync2 (s t : State) : (startPulse s t).sync2 = t.sync2 := rfl
@[simp] theorem startPulse_pre (s t : State) : (startPulse s t).pre = t.pre := rfl
@[simp] theorem startPulse_us (s t : State) : (startPulse s t).us = t.us := rfl
@[simp] theorem startPulse_tStart (s t : State) : (startPulse s t).tStart = t.tStart := rfl
@[simp] theorem startPulse_tFall (s t : State) : (startPulse s t).tFall = s.us := rfl
@[simp] theorem startPulse_selRemain (s t : State) : (startPulse s t).selRemain = t.selRemain := rfl
@[simp] theorem startPulse_curOp (s t : State) : (startPulse s t).curOp = t.curOp := rfl
@[simp] theorem startPulse_curS (s t : State) : (startPulse s t).curS = t.curS := rfl
@[simp] theorem startPulse_params (s t : State) : (startPulse s t).params = t.params := rfl
@[simp] theorem startPulse_host (s t : State) : (startPulse s t).host = t.host := rfl
@[simp] theorem startPulse_rxWave (s t : State) : (startPulse s t).rxWave = t.rxWave := rfl
@[simp] theorem startPulse_edge (s t : State) : (startPulse s t).edge = t.edge := rfl

/-! `nextWait` -/

@[simp] theorem nextWait_toEn (s t : State) : (nextWait s t).toEn = t.toEn := rfl
@[simp] theorem nextWait_ie (s t : State) : (nextWait s t).ie = t.ie := rfl
@[simp] theorem nextWait_tx (s t : State) : (nextWait s t).tx = t.tx := rfl
@[simp] theorem nextWait_busy (s t : State) : (nextWait s t).busy = t.busy := rfl
@[simp] theorem nextWait_done (s t : State) : (nextWait s t).done = t.done := rfl
@[simp] theorem nextWait_ign (s t : State) : (nextWait s t).ign = t.ign := rfl
@[simp] theorem nextWait_result (s t : State) : (nextWait s t).result = t.result := rfl
@[simp] theorem nextWait_timeoutUs (s t : State) : (nextWait s t).timeoutUs = t.timeoutUs := rfl
@[simp] theorem nextWait_selOffUs (s t : State) : (nextWait s t).selOffUs = t.selOffUs := rfl
@[simp] theorem nextWait_selOnUs (s t : State) : (nextWait s t).selOnUs = t.selOnUs := rfl
@[simp] theorem nextWait_levelNum (s t : State) : (nextWait s t).levelNum = t.levelNum := rfl
@[simp] theorem nextWait_levelDen (s t : State) : (nextWait s t).levelDen = t.levelDen := rfl
@[simp] theorem nextWait_cntNoresp (s t : State) : (nextWait s t).cntNoresp = t.cntNoresp := rfl
@[simp] theorem nextWait_cntPreamble (s t : State) : (nextWait s t).cntPreamble = t.cntPreamble := rfl
@[simp] theorem nextWait_cntChecksum (s t : State) : (nextWait s t).cntChecksum = t.cntChecksum := rfl
@[simp] theorem nextWait_durCount (s t : State) : (nextWait s t).durCount = t.durCount := rfl
@[simp] theorem nextWait_frameCount (s t : State) : (nextWait s t).frameCount = t.frameCount := rfl
@[simp] theorem nextWait_segCount (s t : State) : (nextWait s t).segCount = t.segCount := rfl
@[simp] theorem nextWait_cal (s t : State) : (nextWait s t).cal = t.cal := rfl
@[simp] theorem nextWait_frame (s t : State) : (nextWait s t).frame = t.frame := rfl
@[simp] theorem nextWait_seg (s t : State) : (nextWait s t).seg = t.seg := rfl
@[simp] theorem nextWait_dur (s t : State) : (nextWait s t).dur = t.dur := rfl
@[simp] theorem nextWait_phase (s t : State) : (nextWait s t).phase = .capHigh := rfl
@[simp] theorem nextWait_sync1 (s t : State) : (nextWait s t).sync1 = t.sync1 := rfl
@[simp] theorem nextWait_sync2 (s t : State) : (nextWait s t).sync2 = t.sync2 := rfl
@[simp] theorem nextWait_pre (s t : State) : (nextWait s t).pre = t.pre := rfl
@[simp] theorem nextWait_us (s t : State) : (nextWait s t).us = t.us := rfl
@[simp] theorem nextWait_tStart (s t : State) : (nextWait s t).tStart = s.us := rfl
@[simp] theorem nextWait_tFall (s t : State) : (nextWait s t).tFall = t.tFall := rfl
@[simp] theorem nextWait_selRemain (s t : State) : (nextWait s t).selRemain = t.selRemain := rfl
@[simp] theorem nextWait_curOp (s t : State) : (nextWait s t).curOp = t.curOp := rfl
@[simp] theorem nextWait_curS (s t : State) : (nextWait s t).curS = t.curS := rfl
@[simp] theorem nextWait_params (s t : State) : (nextWait s t).params = t.params := rfl
@[simp] theorem nextWait_host (s t : State) : (nextWait s t).host = t.host := rfl
@[simp] theorem nextWait_rxWave (s t : State) : (nextWait s t).rxWave = t.rxWave := rfl
@[simp] theorem nextWait_edge (s t : State) : (nextWait s t).edge = t.edge := rfl

/-! `State.withTimeOf` -/

@[simp] theorem withTimeOf_toEn (s t : State) : (s.withTimeOf t).toEn = s.toEn := rfl
@[simp] theorem withTimeOf_ie (s t : State) : (s.withTimeOf t).ie = s.ie := rfl
@[simp] theorem withTimeOf_tx (s t : State) : (s.withTimeOf t).tx = s.tx := rfl
@[simp] theorem withTimeOf_busy (s t : State) : (s.withTimeOf t).busy = s.busy := rfl
@[simp] theorem withTimeOf_done (s t : State) : (s.withTimeOf t).done = s.done := rfl
@[simp] theorem withTimeOf_ign (s t : State) : (s.withTimeOf t).ign = s.ign := rfl
@[simp] theorem withTimeOf_result (s t : State) : (s.withTimeOf t).result = s.result := rfl
@[simp] theorem withTimeOf_timeoutUs (s t : State) : (s.withTimeOf t).timeoutUs = s.timeoutUs := rfl
@[simp] theorem withTimeOf_selOffUs (s t : State) : (s.withTimeOf t).selOffUs = s.selOffUs := rfl
@[simp] theorem withTimeOf_selOnUs (s t : State) : (s.withTimeOf t).selOnUs = s.selOnUs := rfl
@[simp] theorem withTimeOf_levelNum (s t : State) : (s.withTimeOf t).levelNum = s.levelNum := rfl
@[simp] theorem withTimeOf_levelDen (s t : State) : (s.withTimeOf t).levelDen = s.levelDen := rfl
@[simp] theorem withTimeOf_cntNoresp (s t : State) : (s.withTimeOf t).cntNoresp = s.cntNoresp := rfl
@[simp] theorem withTimeOf_cntPreamble (s t : State) : (s.withTimeOf t).cntPreamble = s.cntPreamble := rfl
@[simp] theorem withTimeOf_cntChecksum (s t : State) : (s.withTimeOf t).cntChecksum = s.cntChecksum := rfl
@[simp] theorem withTimeOf_durCount (s t : State) : (s.withTimeOf t).durCount = s.durCount := rfl
@[simp] theorem withTimeOf_frameCount (s t : State) : (s.withTimeOf t).frameCount = s.frameCount := rfl
@[simp] theorem withTimeOf_segCount (s t : State) : (s.withTimeOf t).segCount = s.segCount := rfl
@[simp] theorem withTimeOf_cal (s t : State) : (s.withTimeOf t).cal = s.cal := rfl
@[simp] theorem withTimeOf_frame (s t : State) : (s.withTimeOf t).frame = s.frame := rfl
@[simp] theorem withTimeOf_seg (s t : State) : (s.withTimeOf t).seg = s.seg := rfl
@[simp] theorem withTimeOf_dur (s t : State) : (s.withTimeOf t).dur = s.dur := rfl
@[simp] theorem withTimeOf_phase (s t : State) : (s.withTimeOf t).phase = s.phase := rfl
@[simp] theorem withTimeOf_sync1 (s t : State) : (s.withTimeOf t).sync1 = t.sync1 := rfl
@[simp] theorem withTimeOf_sync2 (s t : State) : (s.withTimeOf t).sync2 = t.sync2 := rfl
@[simp] theorem withTimeOf_pre (s t : State) : (s.withTimeOf t).pre = t.pre := rfl
@[simp] theorem withTimeOf_us (s t : State) : (s.withTimeOf t).us = t.us := rfl
@[simp] theorem withTimeOf_tStart (s t : State) : (s.withTimeOf t).tStart = s.tStart := rfl
@[simp] theorem withTimeOf_tFall (s t : State) : (s.withTimeOf t).tFall = s.tFall := rfl
@[simp] theorem withTimeOf_selRemain (s t : State) : (s.withTimeOf t).selRemain = s.selRemain := rfl
@[simp] theorem withTimeOf_curOp (s t : State) : (s.withTimeOf t).curOp = s.curOp := rfl
@[simp] theorem withTimeOf_curS (s t : State) : (s.withTimeOf t).curS = s.curS := rfl
@[simp] theorem withTimeOf_params (s t : State) : (s.withTimeOf t).params = s.params := rfl
@[simp] theorem withTimeOf_host (s t : State) : (s.withTimeOf t).host = t.host := rfl
@[simp] theorem withTimeOf_rxWave (s t : State) : (s.withTimeOf t).rxWave = t.rxWave := rfl
@[simp] theorem withTimeOf_edge (s t : State) : (s.withTimeOf t).edge = t.edge := rfl

/-! `State.withFlagsOf` -/

@[simp] theorem withFlagsOf_toEn (s t : State) : (s.withFlagsOf t).toEn = s.toEn := rfl
@[simp] theorem withFlagsOf_ie (s t : State) : (s.withFlagsOf t).ie = s.ie := rfl
@[simp] theorem withFlagsOf_tx (s t : State) : (s.withFlagsOf t).tx = s.tx := rfl
@[simp] theorem withFlagsOf_busy (s t : State) : (s.withFlagsOf t).busy = s.busy := rfl
@[simp] theorem withFlagsOf_done (s t : State) : (s.withFlagsOf t).done = t.done := rfl
@[simp] theorem withFlagsOf_ign (s t : State) : (s.withFlagsOf t).ign = t.ign := rfl
@[simp] theorem withFlagsOf_result (s t : State) : (s.withFlagsOf t).result = s.result := rfl
@[simp] theorem withFlagsOf_timeoutUs (s t : State) : (s.withFlagsOf t).timeoutUs = s.timeoutUs := rfl
@[simp] theorem withFlagsOf_selOffUs (s t : State) : (s.withFlagsOf t).selOffUs = s.selOffUs := rfl
@[simp] theorem withFlagsOf_selOnUs (s t : State) : (s.withFlagsOf t).selOnUs = s.selOnUs := rfl
@[simp] theorem withFlagsOf_levelNum (s t : State) : (s.withFlagsOf t).levelNum = s.levelNum := rfl
@[simp] theorem withFlagsOf_levelDen (s t : State) : (s.withFlagsOf t).levelDen = s.levelDen := rfl
@[simp] theorem withFlagsOf_cntNoresp (s t : State) : (s.withFlagsOf t).cntNoresp = s.cntNoresp := rfl
@[simp] theorem withFlagsOf_cntPreamble (s t : State) : (s.withFlagsOf t).cntPreamble = s.cntPreamble := rfl
@[simp] theorem withFlagsOf_cntChecksum (s t : State) : (s.withFlagsOf t).cntChecksum = s.cntChecksum := rfl
@[simp] theorem withFlagsOf_durCount (s t : State) : (s.withFlagsOf t).durCount = s.durCount := rfl
@[simp] theorem withFlagsOf_frameCount (s t : State) : (s.withFlagsOf t).frameCount = s.frameCount := rfl
@[simp] theorem withFlagsOf_segCount (s t : State) : (s.withFlagsOf t).segCount = s.segCount := rfl
@[simp] theorem withFlagsOf_cal (s t : State) : (s.withFlagsOf t).cal = s.cal := rfl
@[simp] theorem withFlagsOf_frame (s t : State) : (s.withFlagsOf t).frame = s.frame := rfl
@[simp] theorem withFlagsOf_seg (s t : State) : (s.withFlagsOf t).seg = s.seg := rfl
@[simp] theorem withFlagsOf_dur (s t : State) : (s.withFlagsOf t).dur = s.dur := rfl
@[simp] theorem withFlagsOf_phase (s t : State) : (s.withFlagsOf t).phase = s.phase := rfl
@[simp] theorem withFlagsOf_sync1 (s t : State) : (s.withFlagsOf t).sync1 = s.sync1 := rfl
@[simp] theorem withFlagsOf_sync2 (s t : State) : (s.withFlagsOf t).sync2 = s.sync2 := rfl
@[simp] theorem withFlagsOf_pre (s t : State) : (s.withFlagsOf t).pre = s.pre := rfl
@[simp] theorem withFlagsOf_us (s t : State) : (s.withFlagsOf t).us = s.us := rfl
@[simp] theorem withFlagsOf_tStart (s t : State) : (s.withFlagsOf t).tStart = s.tStart := rfl
@[simp] theorem withFlagsOf_tFall (s t : State) : (s.withFlagsOf t).tFall = s.tFall := rfl
@[simp] theorem withFlagsOf_selRemain (s t : State) : (s.withFlagsOf t).selRemain = s.selRemain := rfl
@[simp] theorem withFlagsOf_curOp (s t : State) : (s.withFlagsOf t).curOp = s.curOp := rfl
@[simp] theorem withFlagsOf_curS (s t : State) : (s.withFlagsOf t).curS = s.curS := rfl
@[simp] theorem withFlagsOf_params (s t : State) : (s.withFlagsOf t).params = s.params := rfl
@[simp] theorem withFlagsOf_host (s t : State) : (s.withFlagsOf t).host = s.host := rfl
@[simp] theorem withFlagsOf_rxWave (s t : State) : (s.withFlagsOf t).rxWave = s.rxWave := rfl
@[simp] theorem withFlagsOf_edge (s t : State) : (s.withFlagsOf t).edge = s.edge := rfl

/-! `State.withConfigOf` -/

@[simp] theorem withConfigOf_toEn (s t : State) : (s.withConfigOf t).toEn = t.toEn := rfl
@[simp] theorem withConfigOf_ie (s t : State) : (s.withConfigOf t).ie = t.ie := rfl
@[simp] theorem withConfigOf_tx (s t : State) : (s.withConfigOf t).tx = t.tx := rfl
@[simp] theorem withConfigOf_busy (s t : State) : (s.withConfigOf t).busy = s.busy := rfl
@[simp] theorem withConfigOf_done (s t : State) : (s.withConfigOf t).done = s.done := rfl
@[simp] theorem withConfigOf_ign (s t : State) : (s.withConfigOf t).ign = s.ign := rfl
@[simp] theorem withConfigOf_result (s t : State) : (s.withConfigOf t).result = s.result := rfl
@[simp] theorem withConfigOf_timeoutUs (s t : State) : (s.withConfigOf t).timeoutUs = t.timeoutUs := rfl
@[simp] theorem withConfigOf_selOffUs (s t : State) : (s.withConfigOf t).selOffUs = t.selOffUs := rfl
@[simp] theorem withConfigOf_selOnUs (s t : State) : (s.withConfigOf t).selOnUs = t.selOnUs := rfl
@[simp] theorem withConfigOf_levelNum (s t : State) : (s.withConfigOf t).levelNum = s.levelNum := rfl
@[simp] theorem withConfigOf_levelDen (s t : State) : (s.withConfigOf t).levelDen = s.levelDen := rfl
@[simp] theorem withConfigOf_cntNoresp (s t : State) : (s.withConfigOf t).cntNoresp = s.cntNoresp := rfl
@[simp] theorem withConfigOf_cntPreamble (s t : State) : (s.withConfigOf t).cntPreamble = s.cntPreamble := rfl
@[simp] theorem withConfigOf_cntChecksum (s t : State) : (s.withConfigOf t).cntChecksum = s.cntChecksum := rfl
@[simp] theorem withConfigOf_durCount (s t : State) : (s.withConfigOf t).durCount = s.durCount := rfl
@[simp] theorem withConfigOf_frameCount (s t : State) : (s.withConfigOf t).frameCount = s.frameCount := rfl
@[simp] theorem withConfigOf_segCount (s t : State) : (s.withConfigOf t).segCount = s.segCount := rfl
@[simp] theorem withConfigOf_cal (s t : State) : (s.withConfigOf t).cal = t.cal := rfl
@[simp] theorem withConfigOf_frame (s t : State) : (s.withConfigOf t).frame = s.frame := rfl
@[simp] theorem withConfigOf_seg (s t : State) : (s.withConfigOf t).seg = s.seg := rfl
@[simp] theorem withConfigOf_dur (s t : State) : (s.withConfigOf t).dur = s.dur := rfl
@[simp] theorem withConfigOf_phase (s t : State) : (s.withConfigOf t).phase = s.phase := rfl
@[simp] theorem withConfigOf_sync1 (s t : State) : (s.withConfigOf t).sync1 = s.sync1 := rfl
@[simp] theorem withConfigOf_sync2 (s t : State) : (s.withConfigOf t).sync2 = s.sync2 := rfl
@[simp] theorem withConfigOf_pre (s t : State) : (s.withConfigOf t).pre = s.pre := rfl
@[simp] theorem withConfigOf_us (s t : State) : (s.withConfigOf t).us = s.us := rfl
@[simp] theorem withConfigOf_tStart (s t : State) : (s.withConfigOf t).tStart = s.tStart := rfl
@[simp] theorem withConfigOf_tFall (s t : State) : (s.withConfigOf t).tFall = s.tFall := rfl
@[simp] theorem withConfigOf_selRemain (s t : State) : (s.withConfigOf t).selRemain = s.selRemain := rfl
@[simp] theorem withConfigOf_curOp (s t : State) : (s.withConfigOf t).curOp = s.curOp := rfl
@[simp] theorem withConfigOf_curS (s t : State) : (s.withConfigOf t).curS = s.curS := rfl
@[simp] theorem withConfigOf_params (s t : State) : (s.withConfigOf t).params = s.params := rfl
@[simp] theorem withConfigOf_host (s t : State) : (s.withConfigOf t).host = s.host := rfl
@[simp] theorem withConfigOf_rxWave (s t : State) : (s.withConfigOf t).rxWave = s.rxWave := rfl
@[simp] theorem withConfigOf_edge (s t : State) : (s.withConfigOf t).edge = s.edge := rfl

/-! `State.withDataOf` -/

@[simp] theorem withDataOf_toEn (s t : State) : (s.withDataOf t).toEn = s.toEn := rfl
@[simp] theorem withDataOf_ie (s t : State) : (s.withDataOf t).ie = s.ie := rfl
@[simp] theorem withDataOf_tx (s t : State) : (s.withDataOf t).tx = s.tx := rfl
@[simp] theorem withDataOf_busy (s t : State) : (s.withDataOf t).busy = s.busy := rfl
@[simp] theorem withDataOf_done (s t : State) : (s.withDataOf t).done = s.done := rfl
@[simp] theorem withDataOf_ign (s t : State) : (s.withDataOf t).ign = s.ign := rfl
@[simp] theorem withDataOf_result (s t : State) : (s.withDataOf t).result = s.result := rfl
@[simp] theorem withDataOf_timeoutUs (s t : State) : (s.withDataOf t).timeoutUs = s.timeoutUs := rfl
@[simp] theorem withDataOf_selOffUs (s t : State) : (s.withDataOf t).selOffUs = s.selOffUs := rfl
@[simp] theorem withDataOf_selOnUs (s t : State) : (s.withDataOf t).selOnUs = s.selOnUs := rfl
@[simp] theorem withDataOf_levelNum (s t : State) : (s.withDataOf t).levelNum = s.levelNum := rfl
@[simp] theorem withDataOf_levelDen (s t : State) : (s.withDataOf t).levelDen = s.levelDen := rfl
@[simp] theorem withDataOf_cntNoresp (s t : State) : (s.withDataOf t).cntNoresp = s.cntNoresp := rfl
@[simp] theorem withDataOf_cntPreamble (s t : State) : (s.withDataOf t).cntPreamble = s.cntPreamble := rfl
@[simp] theorem withDataOf_cntChecksum (s t : State) : (s.withDataOf t).cntChecksum = s.cntChecksum := rfl
@[simp] theorem withDataOf_durCount (s t : State) : (s.withDataOf t).durCount = t.durCount := rfl
@[simp] theorem withDataOf_frameCount (s t : State) : (s.withDataOf t).frameCount = t.frameCount := rfl
@[simp] theorem withDataOf_segCount (s t : State) : (s.withDataOf t).segCount = t.segCount := rfl
@[simp] theorem withDataOf_cal (s t : State) : (s.withDataOf t).cal = s.cal := rfl
@[simp] theorem withDataOf_frame (s t : State) : (s.withDataOf t).frame = t.frame := rfl
@[simp] theorem withDataOf_seg (s t : State) : (s.withDataOf t).seg = t.seg := rfl
@[simp] theorem withDataOf_dur (s t : State) : (s.withDataOf t).dur = t.dur := rfl
@[simp] theorem withDataOf_phase (s t : State) : (s.withDataOf t).phase = s.phase := rfl
@[simp] theorem withDataOf_sync1 (s t : State) : (s.withDataOf t).sync1 = s.sync1 := rfl
@[simp] theorem withDataOf_sync2 (s t : State) : (s.withDataOf t).sync2 = s.sync2 := rfl
@[simp] theorem withDataOf_pre (s t : State) : (s.withDataOf t).pre = s.pre := rfl
@[simp] theorem withDataOf_us (s t : State) : (s.withDataOf t).us = s.us := rfl
@[simp] theorem withDataOf_tStart (s t : State) : (s.withDataOf t).tStart = s.tStart := rfl
@[simp] theorem withDataOf_tFall (s t : State) : (s.withDataOf t).tFall = s.tFall := rfl
@[simp] theorem withDataOf_selRemain (s t : State) : (s.withDataOf t).selRemain = s.selRemain := rfl
@[simp] theorem withDataOf_curOp (s t : State) : (s.withDataOf t).curOp = s.curOp := rfl
@[simp] theorem withDataOf_curS (s t : State) : (s.withDataOf t).curS = s.curS := rfl
@[simp] theorem withDataOf_params (s t : State) : (s.withDataOf t).params = s.params := rfl
@[simp] theorem withDataOf_host (s t : State) : (s.withDataOf t).host = s.host := rfl
@[simp] theorem withDataOf_rxWave (s t : State) : (s.withDataOf t).rxWave = s.rxWave := rfl
@[simp] theorem withDataOf_edge (s t : State) : (s.withDataOf t).edge = s.edge := rfl

/-! `State.withResultsOf` -/

@[simp] theorem withResultsOf_toEn (s t : State) : (s.withResultsOf t).toEn = s.toEn := rfl
@[simp] theorem withResultsOf_ie (s t : State) : (s.withResultsOf t).ie = s.ie := rfl
@[simp] theorem withResultsOf_tx (s t : State) : (s.withResultsOf t).tx = s.tx := rfl
@[simp] theorem withResultsOf_busy (s t : State) : (s.withResultsOf t).busy = s.busy := rfl
@[simp] theorem withResultsOf_done (s t : State) : (s.withResultsOf t).done = s.done := rfl
@[simp] theorem withResultsOf_ign (s t : State) : (s.withResultsOf t).ign = s.ign := rfl
@[simp] theorem withResultsOf_result (s t : State) : (s.withResultsOf t).result = t.result := rfl
@[simp] theorem withResultsOf_timeoutUs (s t : State) : (s.withResultsOf t).timeoutUs = s.timeoutUs := rfl
@[simp] theorem withResultsOf_selOffUs (s t : State) : (s.withResultsOf t).selOffUs = s.selOffUs := rfl
@[simp] theorem withResultsOf_selOnUs (s t : State) : (s.withResultsOf t).selOnUs = s.selOnUs := rfl
@[simp] theorem withResultsOf_levelNum (s t : State) : (s.withResultsOf t).levelNum = t.levelNum := rfl
@[simp] theorem withResultsOf_levelDen (s t : State) : (s.withResultsOf t).levelDen = t.levelDen := rfl
@[simp] theorem withResultsOf_cntNoresp (s t : State) : (s.withResultsOf t).cntNoresp = t.cntNoresp := rfl
@[simp] theorem withResultsOf_cntPreamble (s t : State) : (s.withResultsOf t).cntPreamble = t.cntPreamble := rfl
@[simp] theorem withResultsOf_cntChecksum (s t : State) : (s.withResultsOf t).cntChecksum = t.cntChecksum := rfl
@[simp] theorem withResultsOf_durCount (s t : State) : (s.withResultsOf t).durCount = s.durCount := rfl
@[simp] theorem withResultsOf_frameCount (s t : State) : (s.withResultsOf t).frameCount = t.frameCount := rfl
@[simp] theorem withResultsOf_segCount (s t : State) : (s.withResultsOf t).segCount = t.segCount := rfl
@[simp] theorem withResultsOf_cal (s t : State) : (s.withResultsOf t).cal = s.cal := rfl
@[simp] theorem withResultsOf_frame (s t : State) : (s.withResultsOf t).frame = t.frame := rfl
@[simp] theorem withResultsOf_seg (s t : State) : (s.withResultsOf t).seg = t.seg := rfl
@[simp] theorem withResultsOf_dur (s t : State) : (s.withResultsOf t).dur = s.dur := rfl
@[simp] theorem withResultsOf_phase (s t : State) : (s.withResultsOf t).phase = s.phase := rfl
@[simp] theorem withResultsOf_sync1 (s t : State) : (s.withResultsOf t).sync1 = s.sync1 := rfl
@[simp] theorem withResultsOf_sync2 (s t : State) : (s.withResultsOf t).sync2 = s.sync2 := rfl
@[simp] theorem withResultsOf_pre (s t : State) : (s.withResultsOf t).pre = s.pre := rfl
@[simp] theorem withResultsOf_us (s t : State) : (s.withResultsOf t).us = s.us := rfl
@[simp] theorem withResultsOf_tStart (s t : State) : (s.withResultsOf t).tStart = s.tStart := rfl
@[simp] theorem withResultsOf_tFall (s t : State) : (s.withResultsOf t).tFall = s.tFall := rfl
@[simp] theorem withResultsOf_selRemain (s t : State) : (s.withResultsOf t).selRemain = s.selRemain := rfl
@[simp] theorem withResultsOf_curOp (s t : State) : (s.withResultsOf t).curOp = s.curOp := rfl
@[simp] theorem withResultsOf_curS (s t : State) : (s.withResultsOf t).curS = s.curS := rfl
@[simp] theorem withResultsOf_params (s t : State) : (s.withResultsOf t).params = s.params := rfl
@[simp] theorem withResultsOf_host (s t : State) : (s.withResultsOf t).host = s.host := rfl
@[simp] theorem withResultsOf_rxWave (s t : State) : (s.withResultsOf t).rxWave = s.rxWave := rfl
@[simp] theorem withResultsOf_edge (s t : State) : (s.withResultsOf t).edge = s.edge := rfl

/-! `State.drive` -/

@[simp] theorem drive_toEn (s : State) (p : HostPins) : (s.drive p).toEn = s.toEn := rfl
@[simp] theorem drive_ie (s : State) (p : HostPins) : (s.drive p).ie = s.ie := rfl
@[simp] theorem drive_tx (s : State) (p : HostPins) : (s.drive p).tx = s.tx := rfl
@[simp] theorem drive_busy (s : State) (p : HostPins) : (s.drive p).busy = s.busy := rfl
@[simp] theorem drive_done (s : State) (p : HostPins) : (s.drive p).done = s.done := rfl
@[simp] theorem drive_ign (s : State) (p : HostPins) : (s.drive p).ign = s.ign := rfl
@[simp] theorem drive_result (s : State) (p : HostPins) : (s.drive p).result = s.result := rfl
@[simp] theorem drive_timeoutUs (s : State) (p : HostPins) : (s.drive p).timeoutUs = s.timeoutUs := rfl
@[simp] theorem drive_selOffUs (s : State) (p : HostPins) : (s.drive p).selOffUs = s.selOffUs := rfl
@[simp] theorem drive_selOnUs (s : State) (p : HostPins) : (s.drive p).selOnUs = s.selOnUs := rfl
@[simp] theorem drive_levelNum (s : State) (p : HostPins) : (s.drive p).levelNum = s.levelNum := rfl
@[simp] theorem drive_levelDen (s : State) (p : HostPins) : (s.drive p).levelDen = s.levelDen := rfl
@[simp] theorem drive_cntNoresp (s : State) (p : HostPins) : (s.drive p).cntNoresp = s.cntNoresp := rfl
@[simp] theorem drive_cntPreamble (s : State) (p : HostPins) : (s.drive p).cntPreamble = s.cntPreamble := rfl
@[simp] theorem drive_cntChecksum (s : State) (p : HostPins) : (s.drive p).cntChecksum = s.cntChecksum := rfl
@[simp] theorem drive_durCount (s : State) (p : HostPins) : (s.drive p).durCount = s.durCount := rfl
@[simp] theorem drive_frameCount (s : State) (p : HostPins) : (s.drive p).frameCount = s.frameCount := rfl
@[simp] theorem drive_segCount (s : State) (p : HostPins) : (s.drive p).segCount = s.segCount := rfl
@[simp] theorem drive_cal (s : State) (p : HostPins) : (s.drive p).cal = s.cal := rfl
@[simp] theorem drive_frame (s : State) (p : HostPins) : (s.drive p).frame = s.frame := rfl
@[simp] theorem drive_seg (s : State) (p : HostPins) : (s.drive p).seg = s.seg := rfl
@[simp] theorem drive_dur (s : State) (p : HostPins) : (s.drive p).dur = s.dur := rfl
@[simp] theorem drive_phase (s : State) (p : HostPins) : (s.drive p).phase = s.phase := rfl
@[simp] theorem drive_sync1 (s : State) (p : HostPins) : (s.drive p).sync1 = s.sync1 := rfl
@[simp] theorem drive_sync2 (s : State) (p : HostPins) : (s.drive p).sync2 = s.sync2 := rfl
@[simp] theorem drive_pre (s : State) (p : HostPins) : (s.drive p).pre = s.pre := rfl
@[simp] theorem drive_us (s : State) (p : HostPins) : (s.drive p).us = s.us := rfl
@[simp] theorem drive_tStart (s : State) (p : HostPins) : (s.drive p).tStart = s.tStart := rfl
@[simp] theorem drive_tFall (s : State) (p : HostPins) : (s.drive p).tFall = s.tFall := rfl
@[simp] theorem drive_selRemain (s : State) (p : HostPins) : (s.drive p).selRemain = s.selRemain := rfl
@[simp] theorem drive_curOp (s : State) (p : HostPins) : (s.drive p).curOp = s.curOp := rfl
@[simp] theorem drive_curS (s : State) (p : HostPins) : (s.drive p).curS = s.curS := rfl
@[simp] theorem drive_params (s : State) (p : HostPins) : (s.drive p).params = s.params := rfl
@[simp] theorem drive_host (s : State) (p : HostPins) : (s.drive p).host = p :: s.host.tail := rfl
@[simp] theorem drive_rxWave (s : State) (p : HostPins) : (s.drive p).rxWave = s.rxWave := rfl
@[simp] theorem drive_edge (s : State) (p : HostPins) : (s.drive p).edge = s.edge := rfl

/-! `consume` -/

@[simp] theorem consume_toEn (s t : State) : (consume s t).toEn = t.toEn := rfl
@[simp] theorem consume_ie (s t : State) : (consume s t).ie = t.ie := rfl
@[simp] theorem consume_tx (s t : State) : (consume s t).tx = t.tx := rfl
@[simp] theorem consume_busy (s t : State) : (consume s t).busy = t.busy := rfl
@[simp] theorem consume_done (s t : State) : (consume s t).done = t.done := rfl
@[simp] theorem consume_ign (s t : State) : (consume s t).ign = t.ign := rfl
@[simp] theorem consume_result (s t : State) : (consume s t).result = t.result := rfl
@[simp] theorem consume_timeoutUs (s t : State) : (consume s t).timeoutUs = t.timeoutUs := rfl
@[simp] theorem consume_selOffUs (s t : State) : (consume s t).selOffUs = t.selOffUs := rfl
@[simp] theorem consume_selOnUs (s t : State) : (consume s t).selOnUs = t.selOnUs := rfl
@[simp] theorem consume_levelNum (s t : State) : (consume s t).levelNum = t.levelNum := rfl
@[simp] theorem consume_levelDen (s t : State) : (consume s t).levelDen = t.levelDen := rfl
@[simp] theorem consume_cntNoresp (s t : State) : (consume s t).cntNoresp = t.cntNoresp := rfl
@[simp] theorem consume_cntPreamble (s t : State) : (consume s t).cntPreamble = t.cntPreamble := rfl
@[simp] theorem consume_cntChecksum (s t : State) : (consume s t).cntChecksum = t.cntChecksum := rfl
@[simp] theorem consume_durCount (s t : State) : (consume s t).durCount = t.durCount := rfl
@[simp] theorem consume_frameCount (s t : State) : (consume s t).frameCount = t.frameCount := rfl
@[simp] theorem consume_segCount (s t : State) : (consume s t).segCount = t.segCount := rfl
@[simp] theorem consume_cal (s t : State) : (consume s t).cal = t.cal := rfl
@[simp] theorem consume_frame (s t : State) : (consume s t).frame = t.frame := rfl
@[simp] theorem consume_seg (s t : State) : (consume s t).seg = t.seg := rfl
@[simp] theorem consume_dur (s t : State) : (consume s t).dur = t.dur := rfl
@[simp] theorem consume_phase (s t : State) : (consume s t).phase = t.phase := rfl
@[simp] theorem consume_sync1 (s t : State) : (consume s t).sync1 = t.sync1 := rfl
@[simp] theorem consume_sync2 (s t : State) : (consume s t).sync2 = t.sync2 := rfl
@[simp] theorem consume_pre (s t : State) : (consume s t).pre = t.pre := rfl
@[simp] theorem consume_us (s t : State) : (consume s t).us = t.us := rfl
@[simp] theorem consume_tStart (s t : State) : (consume s t).tStart = t.tStart := rfl
@[simp] theorem consume_tFall (s t : State) : (consume s t).tFall = t.tFall := rfl
@[simp] theorem consume_selRemain (s t : State) : (consume s t).selRemain = t.selRemain := rfl
@[simp] theorem consume_curOp (s t : State) : (consume s t).curOp = t.curOp := rfl
@[simp] theorem consume_curS (s t : State) : (consume s t).curS = t.curS := rfl
@[simp] theorem consume_params (s t : State) : (consume s t).params = t.params := rfl
@[simp] theorem consume_host (s t : State) : (consume s t).host = s.host.tail := rfl
@[simp] theorem consume_rxWave (s t : State) : (consume s t).rxWave = s.rxWave.tail := rfl
@[simp] theorem consume_edge (s t : State) : (consume s t).edge = s.edge + 1 := rfl

/-! `advance` -/

@[simp] theorem advance_toEn (s t : State) : (advance s t).toEn = (phaseStep s t).toEn := rfl
@[simp] theorem advance_ie (s t : State) : (advance s t).ie = (phaseStep s t).ie := rfl
@[simp] theorem advance_tx (s t : State) : (advance s t).tx = (phaseStep s t).tx := rfl
@[simp] theorem advance_busy (s t : State) : (advance s t).busy = (phaseStep s t).busy := rfl
@[simp] theorem advance_done (s t : State) : (advance s t).done = (phaseStep s t).done := rfl
@[simp] theorem advance_ign (s t : State) : (advance s t).ign = (phaseStep s t).ign := rfl
@[simp] theorem advance_result (s t : State) : (advance s t).result = (phaseStep s t).result := rfl
@[simp] theorem advance_timeoutUs (s t : State) : (advance s t).timeoutUs = (phaseStep s t).timeoutUs := rfl
@[simp] theorem advance_selOffUs (s t : State) : (advance s t).selOffUs = (phaseStep s t).selOffUs := rfl
@[simp] theorem advance_selOnUs (s t : State) : (advance s t).selOnUs = (phaseStep s t).selOnUs := rfl
@[simp] theorem advance_levelNum (s t : State) : (advance s t).levelNum = (phaseStep s t).levelNum := rfl
@[simp] theorem advance_levelDen (s t : State) : (advance s t).levelDen = (phaseStep s t).levelDen := rfl
@[simp] theorem advance_cntNoresp (s t : State) : (advance s t).cntNoresp = (phaseStep s t).cntNoresp := rfl
@[simp] theorem advance_cntPreamble (s t : State) : (advance s t).cntPreamble = (phaseStep s t).cntPreamble := rfl
@[simp] theorem advance_cntChecksum (s t : State) : (advance s t).cntChecksum = (phaseStep s t).cntChecksum := rfl
@[simp] theorem advance_durCount (s t : State) : (advance s t).durCount = (phaseStep s t).durCount := rfl
@[simp] theorem advance_frameCount (s t : State) : (advance s t).frameCount = (phaseStep s t).frameCount := rfl
@[simp] theorem advance_segCount (s t : State) : (advance s t).segCount = (phaseStep s t).segCount := rfl
@[simp] theorem advance_cal (s t : State) : (advance s t).cal = (phaseStep s t).cal := rfl
@[simp] theorem advance_frame (s t : State) : (advance s t).frame = (phaseStep s t).frame := rfl
@[simp] theorem advance_seg (s t : State) : (advance s t).seg = (phaseStep s t).seg := rfl
@[simp] theorem advance_dur (s t : State) : (advance s t).dur = (phaseStep s t).dur := rfl
@[simp] theorem advance_phase (s t : State) : (advance s t).phase = (phaseStep s t).phase := rfl
@[simp] theorem advance_sync1 (s t : State) : (advance s t).sync1 = s.rxPin := rfl
@[simp] theorem advance_sync2 (s t : State) : (advance s t).sync2 = s.sync1 := rfl
@[simp] theorem advance_pre (s t : State) : (advance s t).pre
    = if s.pre = s.params.ticksLess1 then 0 else s.pre + 1 := rfl
@[simp] theorem advance_us (s t : State) : (advance s t).us
    = if s.pre = s.params.ticksLess1 then s.us + 1 else s.us := rfl
@[simp] theorem advance_tStart (s t : State) : (advance s t).tStart = (phaseStep s t).tStart := rfl
@[simp] theorem advance_tFall (s t : State) : (advance s t).tFall = (phaseStep s t).tFall := rfl
@[simp] theorem advance_selRemain (s t : State) : (advance s t).selRemain = (phaseStep s t).selRemain := rfl
@[simp] theorem advance_curOp (s t : State) : (advance s t).curOp = (phaseStep s t).curOp := rfl
@[simp] theorem advance_curS (s t : State) : (advance s t).curS = (phaseStep s t).curS := rfl
@[simp] theorem advance_params (s t : State) : (advance s t).params = (phaseStep s t).params := rfl
@[simp] theorem advance_host (s t : State) : (advance s t).host = s.host.tail := rfl
@[simp] theorem advance_rxWave (s t : State) : (advance s t).rxWave = s.rxWave.tail := rfl
@[simp] theorem advance_edge (s t : State) : (advance s t).edge = s.edge + 1 := rfl

/-! `resetEdge` -/

@[simp] theorem resetEdge_toEn (s : State) : (resetEdge s).toEn = true := rfl
@[simp] theorem resetEdge_ie (s : State) : (resetEdge s).ie = false := rfl
@[simp] theorem resetEdge_tx (s : State) : (resetEdge s).tx = false := rfl
@[simp] theorem resetEdge_busy (s : State) : (resetEdge s).busy = false := rfl
@[simp] theorem resetEdge_done (s : State) : (resetEdge s).done = false := rfl
@[simp] theorem resetEdge_ign (s : State) : (resetEdge s).ign = false := rfl
@[simp] theorem resetEdge_result (s : State) : (resetEdge s).result = .none := rfl
@[simp] theorem resetEdge_timeoutUs (s : State) : (resetEdge s).timeoutUs = Config.timeoutRstUs := rfl
@[simp] theorem resetEdge_selOffUs (s : State) : (resetEdge s).selOffUs = s.params.selOffRst := rfl
@[simp] theorem resetEdge_selOnUs (s : State) : (resetEdge s).selOnUs = s.params.selOnRst := rfl
@[simp] theorem resetEdge_levelNum (s : State) : (resetEdge s).levelNum = 0xFFFFFFFF := rfl
@[simp] theorem resetEdge_levelDen (s : State) : (resetEdge s).levelDen = 1 := rfl
@[simp] theorem resetEdge_cntNoresp (s : State) : (resetEdge s).cntNoresp = 0 := rfl
@[simp] theorem resetEdge_cntPreamble (s : State) : (resetEdge s).cntPreamble = 0 := rfl
@[simp] theorem resetEdge_cntChecksum (s : State) : (resetEdge s).cntChecksum = 0 := rfl
@[simp] theorem resetEdge_durCount (s : State) : (resetEdge s).durCount = 0 := rfl
@[simp] theorem resetEdge_frameCount (s : State) : (resetEdge s).frameCount = 0 := rfl
@[simp] theorem resetEdge_segCount (s : State) : (resetEdge s).segCount = 0 := rfl
@[simp] theorem resetEdge_cal (s : State) : (resetEdge s).cal = Vector.replicate 8 { valid := false, ref := 0 } := rfl
@[simp] theorem resetEdge_frame (s : State) : (resetEdge s).frame = Vector.replicate 12 0 := rfl
@[simp] theorem resetEdge_seg (s : State) : (resetEdge s).seg = Vector.replicate 10 0 := rfl
@[simp] theorem resetEdge_dur (s : State) : (resetEdge s).dur = Vector.replicate 96 0 := rfl
@[simp] theorem resetEdge_phase (s : State) : (resetEdge s).phase = .idle := rfl
@[simp] theorem resetEdge_sync1 (s : State) : (resetEdge s).sync1 = true := rfl
@[simp] theorem resetEdge_sync2 (s : State) : (resetEdge s).sync2 = true := rfl
@[simp] theorem resetEdge_pre (s : State) : (resetEdge s).pre = 0 := rfl
@[simp] theorem resetEdge_us (s : State) : (resetEdge s).us = 0 := rfl
@[simp] theorem resetEdge_tStart (s : State) : (resetEdge s).tStart = 0 := rfl
@[simp] theorem resetEdge_tFall (s : State) : (resetEdge s).tFall = 0 := rfl
@[simp] theorem resetEdge_selRemain (s : State) : (resetEdge s).selRemain = 0 := rfl
@[simp] theorem resetEdge_curOp (s : State) : (resetEdge s).curOp = 0 := rfl
@[simp] theorem resetEdge_curS (s : State) : (resetEdge s).curS = 0 := rfl
@[simp] theorem resetEdge_params (s : State) : (resetEdge s).params = s.params := rfl
@[simp] theorem resetEdge_host (s : State) : (resetEdge s).host = s.host.tail := rfl
@[simp] theorem resetEdge_rxWave (s : State) : (resetEdge s).rxWave = s.rxWave.tail := rfl
@[simp] theorem resetEdge_edge (s : State) : (resetEdge s).edge = s.edge + 1 := rfl

end Sys2Proof.Machine
end

