-- ==== Sys2Proof/Laws/Ops.lean ====
section
/-! SUPPORT. What each shared operation can do, said once: arithmetic, register stores, the dispatch
of a command, the commits. -/

namespace Sys2Proof.Machine

/-! ## Arithmetic -/

@[simp] theorem hasElapsed_iff (us start : Micros) (n : BitVec 16) :
    hasElapsed us start n = true ↔ n.toNat ≤ (elapsed us start).toNat := by
  simp [hasElapsed]

@[simp] theorem sat16_toNat (v : Micros) : (sat16 v).toNat = min v.toNat 65535 := by
  simp only [sat16, BitVec.toNat_ofNat]; omega

@[simp] theorem satInc_toNat (v : Word) : (satInc v).toNat = min (v.toNat + 1) 4294967295 := by
  simp only [satInc, BitVec.toNat_ofNat]; omega

theorem satInc_ge (v : Word) : v.toNat ≤ (satInc v).toNat := by
  have := v.isLt; simp; omega

@[simp] theorem legalSegCount_toNat (v : BitVec 4) : (legalSegCount v).toNat = min v.toNat 10 := by
  unfold legalSegCount; split <;> simp <;> omega

@[simp] theorem pulseCount_toNat (n : Sensor) : (pulseCount n).toNat = n.toNat + 1 := by
  have := n.isLt; simp [pulseCount]; omega

theorem ticksPerUs_pos (p : Params) : 0 < p.ticksPerUs := Nat.succ_pos _

/-! ## Port operations -/

/-- A store to a register changes RW-idle fields only. -/
theorem store_frame (r : Reg) (d : Word) (s : State) :
    store r d s = (s.withConfigOf (store r d s)).withDataOf (store r d s) := by
  cases r <;> (simp only [store, State.withConfigOf, State.withDataOf])

/-- What a host write to a register other than CMD can do. -/
theorem hostWrite_cases (r : Reg) (d : Word) (s : State) :
    (r.access = .rwIdle ∧ s.busy = true ∧ hostWrite r d s = s.setIgn) ∨
    (r.access = .rwIdle ∧ s.busy = false ∧ hostWrite r d s = store r d s) ∨
    (r.access = .w1c ∧ hostWrite r d s = s.clearFlags d) ∨
    (r.access ≠ .rwIdle ∧ r.access ≠ .w1c ∧ hostWrite r d s = s) := by
  unfold hostWrite
  cases h : r.access <;> cases hb : s.busy <;> simp

/-! ## Dispatch of a command -/

theorem whenIdle_of_busy (act : State → State) (s : State) (h : s.busy = true) :
    whenIdle act s = s.setIgn := by simp [whenIdle, h]

theorem whenIdle_of_idle (act : State → State) (s : State) (h : s.busy = false) :
    whenIdle act s = act s := by simp [whenIdle, h]

/-! ## Commits -/

/-- A frame commit writes FRAME and FRAME_COUNT, or nothing. -/
theorem commitFrame_cases (fo : Option Frame) (t : State) :
    (∃ b cnt, fo = some (.bytes b cnt) ∧ commitFrame fo t = writeFrame b t) ∨
    (fo = some .empty ∧ commitFrame fo t = dropFrame t) ∨ (fo = none ∧ commitFrame fo t = t) := by
  rcases fo with _ | _ | ⟨b, cnt⟩
  · exact .inr (.inr ⟨rfl, rfl⟩)
  · exact .inr (.inl ⟨rfl, rfl⟩)
  · exact .inl ⟨b, cnt, rfl, rfl⟩

/-- Two updates that write result registers only write result registers only. -/
theorem withResultsOf_trans {t u v : State} (h1 : u = t.withResultsOf u) (h2 : v = u.withResultsOf v) :
    v = t.withResultsOf v :=
  calc
    v = u.withResultsOf v := h2
    _ = (t.withResultsOf u).withResultsOf v := by rw [← h1]
    _ = t.withResultsOf v := rfl

theorem commitFrame_frame (fo : Option Frame) (t : State) :
    commitFrame fo t = t.withResultsOf (commitFrame fo t) := by
  rcases commitFrame_cases fo t with ⟨b, cnt, -, h⟩ | ⟨-, h⟩ | ⟨-, h⟩ <;> rw [h] <;> rfl

theorem countFailure_frame (c : FailCode) (t : State) :
    countFailure c t = t.withResultsOf (countFailure c t) := by
  cases c <;> rfl

theorem raiseFailure_frame (op : Opcode) (c : FailCode) (fo : Option Frame) (t : State) :
    raiseFailure op c fo t = t.withResultsOf (raiseFailure op c fo t) := by
  unfold raiseFailure
  refine withResultsOf_trans ?_ (u := countFailure c _) rfl
  refine withResultsOf_trans ?_ (countFailure_frame c _)
  refine withResultsOf_trans ?_ (u := if op = opLevel then _ else _) rfl
  split
  · exact commitFrame_frame fo t
  · exact withResultsOf_trans (commitFrame_frame fo t) rfl

theorem commitSegs_frame (op : Opcode) (seg : List Byte) (t : State) :
    commitSegs op seg t = t.withResultsOf (commitSegs op seg t) := by
  unfold commitSegs; split <;> rfl

theorem commitLevel_frame (lv : LevelResult) (t : State) :
    commitLevel lv t = t.withResultsOf (commitLevel lv t) := by
  cases lv <;> rfl

/-- A commit writes the result registers only: everything else is as before. -/
theorem commit_frame (op : Opcode) (e : EvalResult) (t : State) :
    commit op e t = t.withResultsOf (commit op e t) := by
  cases e with
  | fail c fo => exact raiseFailure_frame op c fo t
  | done fo seg lv =>
    exact withResultsOf_trans (withResultsOf_trans (commitFrame_frame fo t) (commitSegs_frame op seg _))
      (commitLevel_frame lv _)

end Sys2Proof.Machine
end

