-- ==== Sys2Proof/Laws/Evaluation.lean ====
section
/-! SUPPORT. Lemmas of the pure evaluation: the trim, the segments, the level's branches. -/

namespace Sys2Proof.Machine

/-- One step of the backward scan. -/
theorem trimFrom_succ (b : Vector Byte 12) (n : Nat) :
    trimFrom b (n + 1) =
      if 2 ≤ n + 1 ∧ frameByte b (n + 1) = Config.sentinel then trimFrom b n else n + 1 := rfl

theorem trimFrom_le (b : Vector Byte 12) (n : Nat) : trimFrom b n ≤ n := by
  induction n with
  | zero => rfl
  | succ n ih => rw [trimFrom_succ]; split <;> omega

theorem trimFrom_pos (b : Vector Byte 12) (n : Nat) (h : 1 ≤ n) : 1 ≤ trimFrom b n := by
  induction n with
  | zero => omega
  | succ n ih =>
    rw [trimFrom_succ]
    split
    · exact ih (by omega)
    · omega

theorem baseSeg_le (b : Vector Byte 12) : baseSeg b ≤ 11 := trimFrom_le b 11

theorem baseSeg_pos (b : Vector Byte 12) : 1 ≤ baseSeg b := trimFrom_pos b 11 (by omega)

@[simp] theorem rawSegments_length (b : Vector Byte 12) : (rawSegments b).length = baseSeg b - 1 := by
  simp [rawSegments]

theorem rawSegments_length_le (b : Vector Byte 12) : (rawSegments b).length ≤ 10 := by
  have := baseSeg_le b; simp; omega

@[simp] theorem quirk_length (seg : List Byte) : (quirk seg).length = seg.length := by
  unfold quirk; split <;> rfl

/-- What the uncalibrated and the calibrated branch see of a segment array: the leading zeros dropped. -/
theorem level_cases (seg : List Byte) (cal : Option (BitVec 16)) :
    (seg.dropWhile (fun b => b == 0) = [] ∧ level seg cal = .pct 0 1) ∨
    (∃ x after, seg.dropWhile (fun b => b == 0) = x :: after ∧
      ((∃ ref, cal = some ref ∧ level seg cal = calibratedLevel seg ref) ∨
       (cal = none ∧ level seg cal = uncalibratedLevel seg.length x after))) := by
  unfold level
  cases h : seg.dropWhile (fun b => b == 0) with
  | nil => exact .inl ⟨rfl, rfl⟩
  | cons x after =>
    refine .inr ⟨x, after, rfl, ?_⟩
    cases cal with
    | none => exact .inr ⟨rfl, rfl⟩
    | some ref => exact .inl ⟨ref, rfl, rfl⟩

theorem sumBytes_le (seg : List Byte) : sumBytes seg ≤ 255 * seg.length := by
  induction seg with
  | nil => simp [sumBytes]
  | cons x xs ih =>
    have := x.isLt
    simp only [sumBytes, List.map_cons, List.sum_cons, List.length_cons] at *
    omega

/-- The four verdicts on a frame of twelve bytes and a count, in the order of the checks. -/
theorem validate_cases (b : Vector Byte 12) (cnt : BitVec 4) :
    (cnt.toNat ≠ 12 ∧ validate (.bytes b cnt) = .fail .noResponse) ∨
    (cnt.toNat = 12 ∧ preambleNibble b ≠ 9 ∧ validate (.bytes b cnt) = .fail .preambleInvalid) ∨
    (cnt.toNat = 12 ∧ preambleNibble b = 9 ∧ checksum b ≠ frameByte b 1 ∧
      validate (.bytes b cnt) = .fail .checksumMismatch) ∨
    (cnt.toNat = 12 ∧ preambleNibble b = 9 ∧ checksum b = frameByte b 1 ∧
      validate (.bytes b cnt) = .segs (quirk (rawSegments b))) := by
  unfold validate
  by_cases h1 : cnt.toNat = 12
  · by_cases h2 : preambleNibble b = 9
    · by_cases h3 : checksum b = frameByte b 1
      · exact .inr (.inr (.inr ⟨h1, h2, h3, by simp [h1, h2, h3]⟩))
      · exact .inr (.inr (.inl ⟨h1, h2, h3, by simp [h1, h2, h3]⟩))
    · exact .inr (.inl ⟨h1, h2, by simpa [h1] using fun h => absurd h h2⟩)
  · exact .inl ⟨h1, by simp [h1]⟩

/-- The decoder answers twelve bytes or the empty frame. -/
theorem decodeDurations_cases (dur : Vector Duration 96) (cnt : BitVec 7) :
    (cnt.toNat = 96 ∧
      decodeDurations dur cnt = .bytes (Vector.ofFn fun j : Fin 12 => decodedByte dur j.val) 12) ∨
    (cnt.toNat ≠ 96 ∧ decodeDurations dur cnt = .empty) := by
  unfold decodeDurations
  by_cases h : cnt.toNat = 96
  · exact .inl ⟨h, by simp [h]⟩
  · exact .inr ⟨h, by simp [h]⟩

end Sys2Proof.Machine
end

