-- ==== Sys2Proof/Laws/PerInstr.lean ====
section
/-! SUPPORT. The families of statements made per instruction. -/

namespace Sys2Proof.Laws

/-- The command word of an instruction carries its OP in bits 3:0, its SENSOR in bits 15:8 and zeros in
the ignored bits (30_encoding.md R130, R136). -/
def WordFields.Statement (i : Instr) : Prop :=
  opField (encode i) = i.op ∧ sensorField (encode i) = i.sensor ∧ wordIgnoredZero (encode i) = true

/-- The bits of a command word: OP, four ignored zeros, SENSOR, sixteen ignored zeros. -/
theorem commandWord_getLsbD (op : Opcode) (n : Sensor) (k : Nat) :
    (commandWord op n).getLsbD k =
      if k < 4 then op.getLsbD k else if k < 8 then false else if k < 16 then n.getLsbD (k - 8) else false := by
  unfold commandWord
  rw [BitVec.getLsbD_append, BitVec.getLsbD_append, BitVec.getLsbD_append]
  by_cases h4 : k < 4
  · simp [h4]
  by_cases h8 : k < 8
  · simp [h4, h8, show k - 4 < 4 by omega]
  by_cases h16 : k < 16
  · simp [h4, h8, h16, show ¬ k - 4 < 4 by omega, show k - 4 - 4 = k - 8 by omega]
    omega
  · simp [h4, h8, h16, show ¬ k - 4 < 4 by omega, show ¬ k - 4 - 4 < 8 by omega]

theorem commandWord_op (op : Opcode) (n : Sensor) : opField (commandWord op n) = op := by
  apply BitVec.eq_of_getLsbD_eq
  intro k hk
  rw [opField, BitVec.getLsbD_extractLsb', commandWord_getLsbD]
  simp [hk]

theorem commandWord_sensor (op : Opcode) (n : Sensor) : sensorField (commandWord op n) = n := by
  apply BitVec.eq_of_getLsbD_eq
  intro k hk
  rw [sensorField, BitVec.getLsbD_extractLsb', commandWord_getLsbD]
  simp [hk, show ¬ 8 + k < 4 by omega, show 8 + k < 16 by omega]

theorem commandWord_ignored (op : Opcode) (n : Sensor) : wordIgnoredZero (commandWord op n) = true := by
  have h1 : (commandWord op n).extractLsb' 4 4 = 0 := by
    apply BitVec.eq_of_getLsbD_eq
    intro k hk
    rw [BitVec.getLsbD_extractLsb', commandWord_getLsbD]
    simp [show 4 + k < 8 by omega]
  have h2 : (commandWord op n).extractLsb' 16 16 = 0 := by
    apply BitVec.eq_of_getLsbD_eq
    intro k hk
    rw [BitVec.getLsbD_extractLsb', commandWord_getLsbD]
    simp [show ¬ 16 + k < 4 by omega, show ¬ 16 + k < 8 by omega]
  simp [wordIgnoredZero, h1, h2]

theorem wordFields (i : Instr) : WordFields.Statement i :=
  ⟨commandWord_op _ _, commandWord_sensor _ _, commandWord_ignored _ _⟩

theorem WordFields.nop : WordFields.Statement .nop := wordFields _
theorem WordFields.read (n : Sensor) : WordFields.Statement (.read n) := wordFields _
theorem WordFields.select (n : Sensor) : WordFields.Statement (.select n) := wordFields _
theorem WordFields.capture (n : Sensor) : WordFields.Statement (.capture n) := wordFields _
theorem WordFields.decode (n : Sensor) : WordFields.Statement (.decode n) := wordFields _
theorem WordFields.validate (n : Sensor) : WordFields.Statement (.validate n) := wordFields _
theorem WordFields.level (n : Sensor) : WordFields.Statement (.level n) := wordFields _
theorem WordFields.clrcnt : WordFields.Statement .clrcnt := wordFields _

end Sys2Proof.Laws
end

