-- ==== Sys2Proof/Laws/Units.lean ====
section
/-! SUPPORT. What the units' steps can do, said once. -/

namespace Sys2Proof.Machine

/-- The SEL_OFF step ends the hold or changes nothing. -/
theorem selOffStep_cases (s t : State) :
    (s.selOffUs.toNat ≤ (elapsed s.us s.tStart).toNat ∧
      selOffStep s t = turnOn s t) ∨
    ((elapsed s.us s.tStart).toNat < s.selOffUs.toNat ∧ selOffStep s t = t) := by
  unfold selOffStep
  split <;> rename_i h <;> simp only [hasElapsed_iff, Nat.not_le] at h
  · exact .inl ⟨h, rfl⟩
  · exact .inr ⟨h, rfl⟩

/-- The end of the last pulse begins the capture of a READ or ends a SELECT. -/
theorem selectDone_cases (s t : State) :
    (s.curOp = opRead ∧ selectDone s t = beginCapture s (clearRemain t)) ∨
    (s.curOp = opSelect ∧ selectDone s t = (setResult .none (clearRemain t)).endCommand) ∨
    (s.curOp ≠ opRead ∧ s.curOp ≠ opSelect ∧ selectDone s t = clearRemain t) := by
  unfold selectDone
  split
  · exact .inl ⟨‹_›, rfl⟩
  · split
    · exact .inr (.inl ⟨‹_›, rfl⟩)
    · exact .inr (.inr ⟨‹_›, ‹_›, rfl⟩)

/-- The SEL_ON step begins the next pulse, ends the last one or changes nothing. -/
theorem selOnStep_cases (s t : State) :
    (s.selOnUs.toNat ≤ (elapsed s.us s.tStart).toNat ∧ 1 < s.selRemain.toNat ∧ selOnStep s t = nextPulse s t) ∨
    (s.selOnUs.toNat ≤ (elapsed s.us s.tStart).toNat ∧ s.selRemain.toNat ≤ 1 ∧ selOnStep s t = selectDone s t) ∨
    ((elapsed s.us s.tStart).toNat < s.selOnUs.toNat ∧ selOnStep s t = t) := by
  unfold selOnStep
  split <;> rename_i h <;> simp only [hasElapsed_iff, Nat.not_le] at h
  · split
    · exact .inl ⟨h, ‹_›, rfl⟩
    · exact .inr (.inl ⟨h, by omega, rfl⟩)
  · exact .inr (.inr ⟨h, rfl⟩)

theorem timedOut_iff (s : State) (start : Micros) :
    timedOut s start = true ↔ s.toEn = true ∧ s.timeoutUs.toNat ≤ (elapsed s.us start).toNat := by
  simp [timedOut]

/-- The CAP_HIGH step starts a pulse, aborts or waits. -/
theorem capHighStep_cases (s t : State) :
    (s.sync2 = false ∧ capHighStep s t = startPulse s t) ∨
    (s.sync2 = true ∧ timedOut s s.tStart = true ∧ capHighStep s t = beginEval t) ∨
    (s.sync2 = true ∧ timedOut s s.tStart = false ∧ capHighStep s t = t) := by
  unfold capHighStep
  cases h : s.sync2 <;> cases h' : timedOut s s.tStart <;> simp

/-- The CAP_LOW step stores a duration, aborts or waits. -/
theorem capLowStep_cases (s t : State) :
    (s.sync2 = true ∧ s.durCount.toNat = 95 ∧ capLowStep s t = beginEval (storeDuration s t)) ∨
    (s.sync2 = true ∧ s.durCount.toNat ≠ 95 ∧
      capLowStep s t = nextWait s (storeDuration s t)) ∨
    (s.sync2 = false ∧ timedOut s s.tFall = true ∧ capLowStep s t = beginEval t) ∨
    (s.sync2 = false ∧ timedOut s s.tFall = false ∧ capLowStep s t = t) := by
  unfold capLowStep
  cases h : s.sync2 <;> cases h' : timedOut s s.tFall <;> simp
  all_goals by_cases hc : s.durCount.toNat = 95 <;> simp [hc]

/-- The EVAL step commits what the evaluation answers, and ends the command. -/
theorem evalStep_cases (s t : State) :
    (∃ e, evalCommand s.curOp s = some e ∧ evalStep s t = (commit s.curOp e t).endCommand) ∨
    (evalCommand s.curOp s = none ∧ evalStep s t = t.endCommand) := by
  unfold evalStep
  cases evalCommand s.curOp s with
  | none => exact .inr ⟨rfl, rfl⟩
  | some e => exact .inl ⟨e, rfl, rfl⟩

/-- EVAL always ends the command. -/
theorem evalStep_ends (s t : State) :
    (evalStep s t).phase = .idle ∧ (evalStep s t).busy = false ∧ (evalStep s t).done = true := by
  rcases evalStep_cases s t with ⟨e, -, h⟩ | ⟨-, h⟩ <;> simp [h]

/-! ## The units' step by PHASE -/

theorem phaseStep_idle (s t : State) (h : s.phase = .idle) : phaseStep s t = t := by
  unfold phaseStep; rw [h]

theorem phaseStep_selOff (s t : State) (h : s.phase = .selOff) : phaseStep s t = selOffStep s t := by
  unfold phaseStep; rw [h]

theorem phaseStep_selOn (s t : State) (h : s.phase = .selOn) : phaseStep s t = selOnStep s t := by
  unfold phaseStep; rw [h]

theorem phaseStep_capHigh (s t : State) (h : s.phase = .capHigh) : phaseStep s t = capHighStep s t := by
  unfold phaseStep; rw [h]

theorem phaseStep_capLow (s t : State) (h : s.phase = .capLow) : phaseStep s t = capLowStep s t := by
  unfold phaseStep; rw [h]

theorem phaseStep_eval (s t : State) (h : s.phase = .eval) : phaseStep s t = evalStep s t := by
  unfold phaseStep; rw [h]

/-! ## What no unit writes: the configuration, IGN, the timebase and synchroniser, CUR_OP and CUR_S, and
the model's own fields -/

/-- A commit writes the result registers only, so none of these either. -/
theorem commit_keeps (op : Opcode) (e : EvalResult) (t : State) :
    (commit op e t).toEn = t.toEn ∧ (commit op e t).ie = t.ie ∧ (commit op e t).ign = t.ign ∧
    (commit op e t).timeoutUs = t.timeoutUs ∧ (commit op e t).selOffUs = t.selOffUs ∧
    (commit op e t).selOnUs = t.selOnUs ∧ (commit op e t).cal = t.cal ∧
    (commit op e t).sync1 = t.sync1 ∧ (commit op e t).sync2 = t.sync2 ∧ (commit op e t).pre = t.pre ∧
    (commit op e t).us = t.us ∧ (commit op e t).curOp = t.curOp ∧ (commit op e t).curS = t.curS ∧
    (commit op e t).params = t.params ∧ (commit op e t).host = t.host ∧
    (commit op e t).rxWave = t.rxWave ∧ (commit op e t).edge = t.edge := by
  rw [commit_frame]; simp

/-- No unit writes the configuration, IGN, the timebase, the synchroniser, CUR_OP, CUR_S or the model's own
fields. -/
theorem phaseStep_keeps (s t : State) :
    (phaseStep s t).toEn = t.toEn ∧ (phaseStep s t).ie = t.ie ∧ (phaseStep s t).ign = t.ign ∧
    (phaseStep s t).timeoutUs = t.timeoutUs ∧ (phaseStep s t).selOffUs = t.selOffUs ∧
    (phaseStep s t).selOnUs = t.selOnUs ∧ (phaseStep s t).cal = t.cal ∧
    (phaseStep s t).sync1 = t.sync1 ∧ (phaseStep s t).sync2 = t.sync2 ∧ (phaseStep s t).pre = t.pre ∧
    (phaseStep s t).us = t.us ∧ (phaseStep s t).curOp = t.curOp ∧ (phaseStep s t).curS = t.curS ∧
    (phaseStep s t).params = t.params ∧ (phaseStep s t).host = t.host ∧
    (phaseStep s t).rxWave = t.rxWave ∧ (phaseStep s t).edge = t.edge := by
  unfold phaseStep
  cases s.phase with
  | idle => simp
  | selOff => rcases selOffStep_cases s t with ⟨-, h⟩ | ⟨-, h⟩ <;> simp [h]
  | selOn =>
    rcases selOnStep_cases s t with ⟨-, -, h⟩ | ⟨-, -, h⟩ | ⟨-, h⟩
    · simp [h]
    · rcases selectDone_cases s t with ⟨-, h'⟩ | ⟨-, h'⟩ | ⟨-, -, h'⟩ <;> simp [h, h']
    · simp [h]
  | capHigh => rcases capHighStep_cases s t with ⟨-, h⟩ | ⟨-, -, h⟩ | ⟨-, -, h⟩ <;> simp [h]
  | capLow =>
    rcases capLowStep_cases s t with ⟨-, -, h⟩ | ⟨-, -, h⟩ | ⟨-, -, h⟩ | ⟨-, -, h⟩ <;> simp [h]
  | eval =>
    rcases evalStep_cases s t with ⟨e, -, h⟩ | ⟨-, h⟩
    · have := commit_keeps s.curOp e t
      simp [h, this]
    · simp [h]

@[simp] theorem phaseStep_toEn (s t : State) : (phaseStep s t).toEn = t.toEn := (phaseStep_keeps s t).1
@[simp] theorem phaseStep_ie (s t : State) : (phaseStep s t).ie = t.ie := (phaseStep_keeps s t).2.1
@[simp] theorem phaseStep_ign (s t : State) : (phaseStep s t).ign = t.ign := (phaseStep_keeps s t).2.2.1
@[simp] theorem phaseStep_timeoutUs (s t : State) : (phaseStep s t).timeoutUs = t.timeoutUs :=
  (phaseStep_keeps s t).2.2.2.1
@[simp] theorem phaseStep_selOffUs (s t : State) : (phaseStep s t).selOffUs = t.selOffUs :=
  (phaseStep_keeps s t).2.2.2.2.1
@[simp] theorem phaseStep_selOnUs (s t : State) : (phaseStep s t).selOnUs = t.selOnUs :=
  (phaseStep_keeps s t).2.2.2.2.2.1
@[simp] theorem phaseStep_cal (s t : State) : (phaseStep s t).cal = t.cal :=
  (phaseStep_keeps s t).2.2.2.2.2.2.1
@[simp] theorem phaseStep_curOp (s t : State) : (phaseStep s t).curOp = t.curOp := by
  have := phaseStep_keeps s t; simp [this]
@[simp] theorem phaseStep_curS (s t : State) : (phaseStep s t).curS = t.curS := by
  have := phaseStep_keeps s t; simp [this]
@[simp] theorem phaseStep_params (s t : State) : (phaseStep s t).params = t.params := by
  have := phaseStep_keeps s t; simp [this]

end Sys2Proof.Machine
end

