-- ==== Sys2Proof/Laws/Step.lean ====
section
/-! SUPPORT. What a port operation and a step can do, said once. -/

namespace Sys2Proof.Machine

/-- What a command can do at its edge. -/
theorem exec_cases (i : Instr) (s u : State) (h : exec i s = .next u) :
    (i = .nop ∧ u = s) ∨
    (i ≠ .nop ∧ s.busy = true ∧ u = s.setIgn) ∨
    (s.busy = false ∧
      ((∃ n, i = .read n ∧ u = beginSelect n s (startCommand opRead n s)) ∨
       (∃ n, i = .select n ∧ u = beginSelect n s (startCommand opSelect n s)) ∨
       (∃ n, i = .capture n ∧ u = beginCapture s (startCommand opCapture n s)) ∨
       (∃ n, i = .decode n ∧ u = beginEval (startCommand opDecode n s)) ∨
       (∃ n, i = .validate n ∧ u = beginEval (startCommand opValidate n s)) ∨
       (∃ n, i = .level n ∧ u = beginEval (startCommand opLevel n s)) ∨
       (i = .clrcnt ∧ u = clearCounters s))) := by
  cases i <;>
    simp only [exec, execNop, execRead, execSelect, execCapture, execDecode, execValidate, execLevel,
      execClrcnt, whenIdle, Host.Outcome.next.injEq] at h <;>
    subst h <;> cases hb : s.busy <;> simp

/-- Every command answers a next state. -/
theorem exec_next (i : Instr) (s : State) : ∃ u, exec i s = .next u := by
  cases i <;> exact ⟨_, rfl⟩

/-- The port operation of the coming edge leaves `u`. -/
def PortLeaves (s u : State) : Prop :=
  (∃ i, s.command = some i ∧ exec i s = .next u) ∨ (s.command = none ∧ u = portEffect s)

/-- What a step that answers a next state can be. -/
theorem step_cases (s t : State) (h : step s = .next t) :
    (s.hostPins.rst = true ∧ t = resetEdge s) ∨
    (s.hostPins.rst = false ∧ ∃ u, PortLeaves s u ∧ t = advance s u) := by
  unfold step at h
  cases hr : s.hostPins.rst with
  | true => simp only [hr, if_true, Host.Outcome.next.injEq] at h; exact .inl ⟨rfl, h.symm⟩
  | false =>
    simp only [hr, Bool.false_eq_true, if_false] at h
    refine .inr ⟨rfl, ?_⟩
    cases hc : s.command with
    | none =>
      simp only [hc, finishEdge, Host.Outcome.next.injEq] at h
      exact ⟨_, .inr ⟨hc, rfl⟩, h.symm⟩
    | some i =>
      simp only [hc] at h
      cases he : exec i s with
      | next u =>
        simp only [he, finishEdge, Host.Outcome.next.injEq] at h
        exact ⟨u, .inl ⟨i, hc, he⟩, h.symm⟩
      | fault f => cases f
      | refused r => simp [he, finishEdge] at h

/-- What a port operation that is no command can do. -/
theorem portEffect_cases (s : State) :
    portEffect s = s ∨ portEffect s = s.setIgn ∨
    (∃ a d, s.busOp = .write a d ∧ portEffect s = hostWrite (regAt a) d s) := by
  unfold portEffect
  cases hb : s.busOp with
  | none => simp
  | read a => simp
  | write a d =>
    by_cases ha : regAt a = .cmd
    · cases hd : decode d <;> simp [ha, hd]
    · simp [ha]

/-- While a command runs, a port operation can change IGN and DONE only. -/
theorem port_busy (s u : State) (hb : s.busy = true) (h : PortLeaves s u) :
    u = s.withFlagsOf u := by
  rcases h with ⟨i, -, he⟩ | ⟨-, rfl⟩
  · rcases exec_cases i s u he with ⟨-, rfl⟩ | ⟨-, -, rfl⟩ | ⟨hi, -⟩
    · rfl
    · rfl
    · simp [hb] at hi
  · rcases portEffect_cases s with h | h | ⟨a, d, -, h⟩
    · rw [h]; rfl
    · rw [h]; rfl
    · rcases hostWrite_cases (regAt a) d s with ⟨-, -, h'⟩ | ⟨-, h', -⟩ | ⟨-, h'⟩ | ⟨-, -, h'⟩
      · rw [h, h']; rfl
      · simp [hb] at h'
      · rw [h, h']; rfl
      · rw [h, h']; rfl

/-- No port operation writes the timebase, the synchroniser or the model's own fields. -/
theorem port_keeps (s u : State) (h : PortLeaves s u) :
    u.sync1 = s.sync1 ∧ u.sync2 = s.sync2 ∧ u.pre = s.pre ∧ u.us = s.us ∧ u.params = s.params ∧
    u.host = s.host ∧ u.rxWave = s.rxWave ∧ u.edge = s.edge := by
  rcases h with ⟨i, -, he⟩ | ⟨-, rfl⟩
  · rcases exec_cases i s u he with ⟨-, rfl⟩ | ⟨-, -, rfl⟩ | ⟨-, h⟩
    · simp
    · simp
    · rcases h with ⟨n, -, rfl⟩ | ⟨n, -, rfl⟩ | ⟨n, -, rfl⟩ | ⟨n, -, rfl⟩ | ⟨n, -, rfl⟩ | ⟨n, -, rfl⟩ |
        ⟨-, rfl⟩ <;> simp
  · rcases portEffect_cases s with h | h | ⟨a, d, -, h⟩
    · simp [h]
    · simp [h]
    · rcases hostWrite_cases (regAt a) d s with ⟨-, -, h'⟩ | ⟨-, -, h'⟩ | ⟨-, h'⟩ | ⟨-, -, h'⟩
      · simp [h, h']
      · rw [h, h', store_frame]; simp
      · simp [h, h']
      · simp [h, h']

/-- An edge without a reset: some port effect, and the rest of the edge. -/
theorem step_next (s : State) (hr : s.hostPins.rst = false) :
    ∃ u, PortLeaves s u ∧ step s = .next (advance s u) := by
  unfold step
  rw [hr]
  cases hc : s.command with
  | none => exact ⟨_, .inr ⟨hc, rfl⟩, rfl⟩
  | some i =>
    obtain ⟨u, hu⟩ := exec_next i s
    exact ⟨u, .inl ⟨i, hc, hu⟩, by simp [hu, finishEdge]⟩

/-! ## Runs -/

@[simp] theorem runFor_zero (s : State) : runFor 0 s = some s := rfl

theorem runFor_succ (n : Nat) (s t : State) (h : step s = .next t) : runFor (n + 1) s = runFor n t := by
  simp [runFor, h]

/-- A run of `m + n` steps is a run of `m` and then one of `n`. -/
theorem runFor_add (m n : Nat) (s t : State) (h : runFor m s = some t) : runFor (m + n) s = runFor n t := by
  induction m generalizing s with
  | zero => simp only [runFor_zero, Option.some.injEq] at h; rw [h, Nat.zero_add]
  | succ m ih =>
    rw [show m + 1 + n = (m + n) + 1 by omega]
    cases hs : step s with
    | next u => rw [runFor_succ _ _ _ hs] at h ⊢; exact ih u h
    | fault f => cases f
    | refused r => simp [runFor, hs] at h

/-- A script that leaves RST at 0 for one edge more leaves it at 0 now. -/
theorem noResetFor_now (s : State) (n : Nat) (h : s.noResetFor (n + 1)) : s.hostPins.rst = false := by
  obtain ⟨h1, h2⟩ := h
  unfold State.hostPins
  cases hh : s.host with
  | nil => simp [hh] at h1
  | cons p r => exact h2 p (by simp [hh])

/-- A script that leaves RST at 0 for `n + 1` edges leaves it at 0 for `n` after one of them. -/
theorem noResetFor_advance (s u : State) (n : Nat) (h : s.noResetFor (n + 1)) : (advance s u).noResetFor n := by
  obtain ⟨h1, h2⟩ := h
  cases hh : s.host with
  | nil => simp [hh] at h1
  | cons a r =>
    refine ⟨by simpa [hh] using h1, fun p hp => h2 p ?_⟩
    rw [advance_host, hh, List.tail_cons] at hp
    simp [hh, hp]

end Sys2Proof.Machine
end

