-- ==== Sys2Proof/Machine/HostProgram.lean ====
section
/-! DEFINITION. Host programs: the sequences of register-port operations of 30_encoding.md R135 and R136,
one port operation per edge, with RST = 0. They drive the machine from outside; no step of it depends on
them. -/

namespace Sys2Proof.Machine

/-- One line of a host program (30_encoding.md R135). A field is named by its lowest bit and its width. -/
inductive HostLine where
  /-- `W <reg>, <value>`. -/
  | w (r : Reg) (d : Word)
  /-- `R <reg>`. -/
  | r (r : Reg)
  /-- `R <reg> => <value>`. -/
  | expect (r : Reg) (v : Word)
  /-- `POLL <reg>.<field> == <v>`. -/
  | poll (r : Reg) (lo width v : Nat)
  /-- `IDLE <n>`. -/
  | idle (n : Nat)
deriving DecidableEq, Repr

/-- The pseudo-instructions (30_encoding.md R136). -/
inductive Pseudo where
  /-- `NOP`, `READ s`, ..., `CLRCNT`. -/
  | command (i : Instr)
  /-- `WAIT`. -/
  | wait
  /-- `ACK`. -/
  | ack
  /-- `ACKIGN`. -/
  | ackIgn
  /-- `CALSET i, r`. -/
  | calSet (i : Fin 8) (ref : BitVec 16)
  /-- `CALCLR i`. -/
  | calClr (i : Fin 8)
  /-- `POWER v`, with the CTRL value the host wrote last. -/
  | power (lastCtrl : Word) (v : Bool)
deriving DecidableEq, Repr

/-- The expansion of a pseudo-instruction (30_encoding.md R136). -/
def Pseudo.expand : Pseudo → HostLine
  | .command i => .w .cmd (encode i)
  | .wait => .poll .status 0 1 0
  | .ack => .w .status 0x00000002
  | .ackIgn => .w .status 0x00000004
  | .calSet i ref => .w (.cal i) (0x80000000 ||| ref.zeroExtend 32)
  | .calClr i => .w (.cal i) 0x00000000
  | .power lastCtrl v => .w .ctrl ((lastCtrl &&& ~~~0x4) ||| (if v then 0x4 else 0))

/-- One edge with the host carrying out `op`, RST = 0. -/
def hostEdge (op : BusOp) (s : State) : Option State :=
  match step (s.drive (pinsOf op)) with
  | .next t => some t
  | .fault _ => none
  | .refused _ => none

/-- `n` edges with no port operation. -/
def idleFor : Nat → State → Option State
  | 0, s => some s
  | n + 1, s => (hostEdge .none s).bind (idleFor n)

/-- Reads on consecutive edges until the field equals `v`; `none` when `fuel` reads did not find it. -/
def pollFor (a : Addr) (r : Reg) (lo width v : Nat) : Nat → State → Option State
  | 0, _ => none
  | fuel + 1, s =>
    if ((readval r s).extractLsb' lo width).toNat = v then hostEdge (.read a) s
    else (hostEdge (.read a) s).bind (pollFor a r lo width v fuel)

/-- One line of a host program on the machine; `none` when the line names no register, a poll runs out of
`fuel`, or a read is not the value written after `=>`. -/
def runLine (fuel : Nat) (l : HostLine) (s : State) : Option State :=
  match l with
  | .w r d => r.offset.bind fun a => hostEdge (.write a d) s
  | .r r => r.offset.bind fun a => hostEdge (.read a) s
  | .expect r v => r.offset.bind fun a => if readval r s = v then hostEdge (.read a) s else none
  | .poll r lo width v => r.offset.bind fun a => pollFor a r lo width v fuel s
  | .idle n => idleFor n s

/-- A host program, one line after the other (30_encoding.md R135). -/
def runProgram (fuel : Nat) (prog : List HostLine) (s : State) : Option State :=
  prog.foldl (fun acc l => acc.bind (runLine fuel l)) (some s)

end Sys2Proof.Machine
end

