-- ==== Sys2Proof/Tests/Slice0.lean ====
section
/-! SUPPORT. The row's own tests: words of the encoding, ill-formed words, one or two single steps per
command (expected values from the spec's examples and 95_test_vectors.md), and one witness for each
obligation that has hypotheses. -/

namespace Sys2Proof.Tests
open Sys2Proof Sys2Proof.Machine

/-! ## Helpers -/

/-- The state after reset with TICKS_PER_US = 1, SEL_OFF = 3, SEL_ON = 5, nothing on the pins. -/
def base : State := State.resetWith { ticksLess1 := 0, selOffRst := 3, selOnRst := 5 }

/-- A host that does nothing at an edge. -/
abbrev quiet : HostPins := pinsOf .none

/-- `base`, the host quiet, RX high: a script for four edges. -/
def calm : State := { base with host := [quiet, quiet, quiet, quiet], rxWave := [true, true, true, true] }

/-- `calm` in the phase `p` of the command `op`. -/
def running (p : Phase) (op : Opcode) : State := { calm with busy := true, phase := p, curOp := op }

/-- What `f` reads in the state after one step. -/
def after {α : Type} (s : State) (f : State → α) : Option α := (nextOf (step s)).map f

/-- `calm` with the command word `w` on the port. -/
def writing (w : Word) : State := { calm with host := [cmdWritePins w, quiet, quiet, quiet] }

/-- The frame of 41_commands.md R187's example, [0x90, 0x2E, 0x10, 0x20, 0xFF × 8]. -/
def exampleFrame : Vector Byte 12 := #v[0x90, 0x2E, 0x10, 0x20, 0xFF, 0xFF, 0xFF, 0xFF, 0xFF, 0xFF, 0xFF, 0xFF]

/-! ## Decoding: words written out bit by bit (30_encoding.md R130, 41_commands.md R182 to R190) -/

theorem test_decode_nop : decode 0b11111111_11111111_0000_0000_1111_0000#32 = .ok .nop := by decide
theorem test_decode_read : decode 0b00000000_00000000_1000_0001_0000_0001#32 = .ok (.read 0x81) := by decide
theorem test_decode_select : decode 0b00000000_00000000_0000_0010_0000_0010#32 = .ok (.select 2) := by decide
theorem test_decode_capture : decode 0b10000000_00000001_1111_1111_1001_0011#32 = .ok (.capture 255) := by
  decide
theorem test_decode_decode : decode 0b00000000_00000000_0000_0101_0000_0100#32 = .ok (.decode 5) := by decide
theorem test_decode_validate : decode 0b00000000_00000000_0000_0000_0000_0101#32 = .ok (.validate 0) := by
  decide
theorem test_decode_level : decode 0b00000000_00000000_0000_1001_0000_0110#32 = .ok (.level 9) := by decide
theorem test_decode_clrcnt : decode 0b00000000_00000000_0000_0000_0000_0111#32 = .ok .clrcnt := by decide
theorem test_decode_reserved_lowest : decode 0b1000#32 = .error (.reservedOp 8) := by decide
theorem test_decode_reserved_highest : decode 0x0000000F#32 = .error (.reservedOp 15) := by decide

/-- The eight words of 30_encoding.md R136. -/
theorem test_encode_words :
    [Instr.nop, .read 1, .select 2, .capture 255, .decode 5, .validate 0, .level 9, .clrcnt].map encode =
      [0x00000000, 0x00000101, 0x00000202, 0x0000FF03, 0x00000504, 0x00000005, 0x00000906, 0x00000007] := by
  decide

/-! ## Well-formedness: an ill-formed word for each check -/

theorem test_wf_reserved_op : wordNames 0x00000108 = false ∧ wordNames 0x00000107 = true := by decide
theorem test_wf_ignored_low : wordIgnoredZero 0x00000011 = false ∧ wordIgnoredZero 0x00000001 = true := by decide
theorem test_wf_ignored_high : wordIgnoredZero 0x00010001 = false := by decide
theorem test_wf_sensor_nop : wordSensorZero 0x00000100 = false ∧ wordSensorZero 0x00000101 = true := by decide
theorem test_wf_sensor_clrcnt : wordSensorZero 0x00000107 = false := by decide
theorem test_wf_canonical :
    wordCanonical 0x00000108 = false ∧ wordCanonical 0x00000011 = false ∧ wordCanonical 0x00000100 = false ∧
    wordCanonical 0x0000FF06 = true := by decide

/-! ## One step per command -/

/-- 41_commands.md R182: `W CMD, 0xFFFF00F0` leaves STATUS as after reset. -/
theorem test_nop_status : after (writing 0xFFFF00F0) State.statusWord = some 0x00010000 := by decide

/-- 60_exceptions.md R371: a NOP while BUSY = 1 does not set IGN. -/
theorem test_nop_busy : after { writing 0 with busy := true, phase := .selOff } State.ign = some false := by decide

/-- 41_commands.md R183: s = 255 sends 256 pulses; BUSY = 1, PHASE = SEL_OFF. -/
theorem test_read_starts :
    after (writing 0x0000FF01) (fun t => (t.selRemain, t.curOp, t.curS, t.statusWord)) =
      some (256, 1, 255, 0x00010101) := by decide

/-- 42_bus_addressor.md R223: the last on hold of a READ begins the capture, TX stays 1. -/
theorem test_read_captures :
    after { running .selOn opRead with us := 5, selRemain := 1, tx := true, durCount := 9 }
      (fun t => (t.phase, t.tx, t.durCount, t.tStart, t.selRemain)) = some (.capHigh, true, 0, 5, 0) := by decide

/-- 42_bus_addressor.md R221: `SELECT 2` sets SEL_REMAIN = 3 and TX = 0. -/
theorem test_select_starts :
    after { writing 0x00000202 with tx := true } (fun t => (t.selRemain, t.tx, t.phase)) =
      some (3, false, .selOff) := by decide

/-- 41_commands.md R184: the end of SELECT leaves RESULT = NONE, DONE = 1, TX = 1 and the level. -/
theorem test_select_ends :
    after { running .selOn opSelect with us := 5, selRemain := 1, tx := true, result := .ok, levelNum := 7 }
      (fun t => (t.statusWord, t.levelNum)) = some (0x00030002, 7) := by decide

/-- 43_pulse_capture.md R243: after `CAPTURE 0` DUR_COUNT reads 0; TX is not written. -/
theorem test_capture_starts :
    after { writing 0x00000003 with durCount := 96, tx := true } (fun t => (t.durCount, t.tx, t.statusWord)) =
      some (0, true, 0x00030301) := by decide

/-- 43_pulse_capture.md R245: with T_FALL 30 microseconds back, a rise stores 30. -/
theorem test_capture_stores :
    after { running .capLow opCapture with us := 40, tFall := 10, durCount := 95 }
      (fun t => (t.dur[95], t.durCount, t.phase)) = some (30, 96, .eval) := by decide

/-- 41_commands.md R181: DECODE starts in EVAL. -/
theorem test_decode_starts : after (writing 0x00000004) State.statusWord = some 0x00010501 := by decide

/-- 41_commands.md R186: all 27 decode to twelve 0xFF, PREAMBLE_INVALID. -/
theorem test_decode_ones :
    after { running .eval opDecode with dur := Vector.replicate 96 27, durCount := 96 }
      (fun t => (t.frame, t.frameCount, t.statusWord, t.cntPreamble)) =
      some (Vector.replicate 12 0xFF, 12, 0x00010032, 1) := by decide

/-- 41_commands.md R187: the example frame gives SEG = [0x10, 0x20] and 4800/64. -/
theorem test_validate_example :
    after { running .eval opValidate with frame := exampleFrame, frameCount := 12 }
      (fun t => (t.statusWord, t.seg[0], t.seg[1], t.segCount, t.levelNum, t.levelDen)) =
      some (0x00010012, 0x10, 0x20, 2, 4800, 64) := by decide

/-- 45_frame_validator.md R291: FRAME_COUNT = 13 gives NO_RESPONSE and counts it. -/
theorem test_validate_count :
    after { running .eval opValidate with frame := exampleFrame, frameCount := 13, cntNoresp := 0xFFFFFFFF }
      (fun t => (t.result, t.levelNum, t.segCount, t.cntNoresp)) =
      some (.noResponse, 0xFFFFFFFF, 0, 0xFFFFFFFF) := by decide

/-- 41_commands.md R188: SEG = [200, 255, 255] gives 142000/1530 at s = 8, which is never calibrated; at
s = 7 with CAL[7] = Present(300) it gives 71000/300 (46_level_decoder.md R321, R327). -/
theorem test_level_example :
    let s : State :=
      { running .eval opLevel with
        seg := #v[200, 255, 255, 0, 0, 0, 0, 0, 0, 0], segCount := 3
        cal := Vector.replicate 8 { valid := true, ref := 300 } }
    after { s with curS := 8 } (fun t => (t.result, t.levelNum, t.levelDen, t.segCount)) =
      some (.ok, 142000, 1530, 3) ∧
    after { s with curS := 7 } (fun t => (t.result, t.levelNum, t.levelDen)) = some (.ok, 71000, 300) := by decide

/-- 46_level_decoder.md R325: [0, 5, 0] uncalibrated is LEVEL_FAULT, and no counter changes. -/
theorem test_level_fault :
    after { running .eval opLevel with seg := #v[0, 5, 0, 0, 0, 0, 0, 0, 0, 0], segCount := 3 }
      (fun t => (t.statusWord, t.levelNum, t.levelDen, t.cntChecksum)) =
      some (0x00010052, 0xFFFFFFFF, 1, 0) := by decide

/-- 41_commands.md R189: the counters read 0, BUSY and DONE as before. -/
theorem test_clrcnt :
    after { writing 0x00000007 with cntNoresp := 5, cntPreamble := 0xFFFFFFFF, cntChecksum := 1, done := true }
      (fun t => (t.cntNoresp, t.cntPreamble, t.cntChecksum, t.statusWord)) = some (0, 0, 0, 0x00010002) := by
  decide

/-- 60_exceptions.md R377: CLRCNT at an end edge is ignored and sets IGN; the increment happens. -/
theorem test_clrcnt_busy :
    after { writing 0x00000007 with busy := true, phase := .eval, curOp := opValidate, cntNoresp := 5 }
      (fun t => (t.cntNoresp, t.ign, t.done)) = some (6, true, true) := by decide

/-! ## The port -/

/-- 40_host_access.md R163: `W CAL[2], 0x8000012C`. -/
theorem test_store_cal :
    after { calm with host := [pinsOf (.write 0x048 0xFFFF012C)] } (fun t => readval (.cal 2) t) =
      some 0x8000012C := by decide

/-- 40_host_access.md R168: `W SEG_COUNT, 15` stores 10. -/
theorem test_store_segcount :
    after { calm with host := [pinsOf (.write 0x034 15)] } (fun t => t.segCount) = some 10 := by decide

/-- 40_host_access.md R166, 60_exceptions.md R377: a W1C of DONE at the end edge leaves DONE = 1. -/
theorem test_done_wins :
    after { running .eval opLevel with host := [pinsOf (.write 0x008 0x6)], ign := true }
      (fun t => (t.done, t.ign)) = some (true, false) := by decide

/-- 30_encoding.md R136: CALSET, POWER and ACK, and a command with its WAIT (40_host_access.md R162). -/
theorem test_host_program :
    (runProgram 3 [Pseudo.expand (.calSet 2 300), .expect (.cal 2) 0x8000012C, Pseudo.expand (.power 1 true),
        .expect .ctrl 0x5, Pseudo.expand (.command (.level 2)), Pseudo.expand .wait,
        .expect .status 0x00030012, Pseudo.expand .ack, .expect .status 0x00030010]
      { base with rxWave := List.replicate 12 true }).isSome = true := by decide

/-- The first instruction after reset runs: its opcode's step answers a next state. -/
theorem test_first_instruction :
    [0x0, 0x1, 0x2, 0x3, 0x4, 0x5, 0x6, 0x7].map
      (fun w => (nextOf (step (State.reset.withFetchWord 32 w))).map (fun t => t.phase.code)) =
      [some 0, some 1, some 1, some 3, some 5, some 5, some 5, some 0] := by decide

/-! ## Witnesses: states and operands that meet every hypothesis of an obligation, clause by clause -/

/-- A state that a run reaches: the outcome of `n` steps exists. -/
abbrev runs (n : Nat) (s : State) : Prop := (runFor n s).isSome = true

theorem witness_DecodeOfEncode : (Instr.read 255).wf = true ∧ Instr.clrcnt.wf = true := by decide

theorem witness_IgnoredBits : (0x7 : Opcode) = opNop ∨ (0x7 : Opcode) = opClrcnt := by decide

theorem witness_CanonicalWords :
    wordCanonical 0x0000FF01 = true ∧ decode 0x0000FF01 = .ok (.read 255) ∧
    wordCanonical 0x00000007 = true ∧ decode 0x00000007 = .ok .clrcnt := by decide

theorem witness_StepRuns_port :
    let s : State := { calm with host := [pinsOf (.write 0x007 0xFF01)] }
    s.hostPins.rst = false ∧ s.busOp = .write 0x007 0xFF01 ∧ regAt 0x007 = .cmd ∧
    decode 0xFF01 = .ok (.read 255) := by decide

theorem witness_StepRuns_fetch : decodeTableWord 32 0xFF06 = some (.level 255) := by decide

theorem witness_Nop : opField 0xFFFF00F0 = 0 := by decide

theorem witness_starts : base.busy = false ∧ State.reset.busy = false := ⟨rfl, rfl⟩

theorem witness_Clrcnt :
    opField 0xFFFF00F7 = 7 ∧ base.busy = false ∧ (running .eval opLevel).busy = true := by decide

theorem witness_IgnoredRequests_reserved :
    (writing 0x8).hostPins.rst = false ∧ (writing 0x8).ignoredRequest ∧ after (writing 0x8) State.ign = some true :=
  ⟨rfl, ⟨0x004, 0x8, rfl, .inl (by decide)⟩, by decide⟩

theorem witness_IgnoredRequests_busyCommand :
    ({ writing 0x1 with busy := true, phase := .selOff } : State).hostPins.rst = false ∧
    ({ writing 0x1 with busy := true, phase := .selOff } : State).ignoredRequest :=
  ⟨rfl, 0x004, 0x1, rfl, .inr (.inl (by decide))⟩

theorem witness_IgnoredRequests_busyWrite :
    ({ running .selOff opRead with host := [pinsOf (.write 0x27C 5)] } : State).ignoredRequest :=
  ⟨0x27C, 5, rfl, .inr (.inr (by decide))⟩

theorem witness_IgnoredRequests_sticky :
    ({ calm with ign := true } : State).hostPins.rst = false ∧
    after { calm with ign := true } State.ign = some true ∧
    after { calm with ign := true, host := [pinsOf (.write 0x008 0x4)] } State.ign = some false := by decide

/-- The look-up at its boundary: index 7 present, index 7 absent, index 8 always absent. -/
theorem witness_calLookup :
    let cal : Vector CalEntry 8 := Vector.replicate 8 { valid := true, ref := 300 }
    calLookup cal 7 = some 300 ∧ (∃ i : Fin 8, (7 : Sensor).toNat = i.val ∧ cal[i].valid = true ∧ cal[i].ref = 300) ∧
    calLookup (cal.set 7 { valid := false, ref := 300 }) 7 = none ∧
    calLookup cal 8 = none ∧ calLookup cal 255 = none := by decide

/-- LEVEL, VALIDATE and DECODE: idle, the command on the port, a quiet edge after it. -/
theorem witness_evaluationRuns :
    calm.busy = false ∧ calm.phase = .idle ∧ quiet.rst = false ∧
    (writing 0xFF06).writesCommand (.level 255) [quiet, quiet, quiet] ∧
    (writing 0x0005).writesCommand (.validate 0) [quiet, quiet, quiet] ∧
    (writing 0x0704).writesCommand (.decode 7) [quiet, quiet, quiet] := by decide

theorem witness_CaptureCommandsEnd :
    (running .eval opRead).busy = true ∧ (running .eval opCapture).phase = .eval ∧
    (running .eval opDecode).hostPins.rst = false ∧
    (running .eval opRead).curOp = opRead ∧ (running .eval opCapture).curOp = opCapture ∧
    (running .eval opDecode).curOp = opDecode := by decide

/-- Sound states in every phase; the holds and waits are at their exact end. -/
theorem witness_PhaseFollowsTheTable :
    calm.inv ∧ calm.hostPins.rst = false ∧
    ({ running .selOff opRead with selRemain := 256, us := 3 } : State).inv ∧
    ({ running .selOn opSelect with selRemain := 1, us := 5 } : State).inv ∧
    ({ running .capHigh opCapture with durCount := 95, us := 10000 } : State).inv ∧
    ({ running .capLow opRead with durCount := 95 } : State).inv ∧ (running .eval opLevel).inv :=
  ⟨by decide, by decide, by decide, by decide, by decide, by decide, by decide⟩

theorem witness_PhaseFollowsTheTable_reset :
    let s : State := { running .capLow opRead with host := [{ quiet with rst := true }] }
    s.inv ∧ s.hostPins.rst = true ∧ after s (fun t => (t.phase, t.ign)) = some (.idle, false) := by decide

theorem witness_SelOffEdge :
    (running .selOff opSelect).busy = true ∧ (running .selOff opSelect).phase = .selOff ∧
    (running .selOff opSelect).hostPins.rst = false ∧
    ({ running .selOff opSelect with us := 3 } : State).selOffUs.toNat ≤ ((3 : Micros) - 0).toNat := by decide

theorem witness_SelOnEdge :
    (running .selOn opRead).busy = true ∧ (running .selOn opRead).phase = .selOn ∧
    (running .selOn opRead).hostPins.rst = false ∧
    (running .selOn opRead).curOp = opRead ∧ (running .selOn opSelect).curOp = opSelect ∧
    after { running .selOn opRead with us := 5, selRemain := 2 } (fun t => (t.phase, t.busy)) =
      some (.selOff, true) ∧
    after { running .selOn opSelect with us := 5, selRemain := 1 } State.busy = some false := by decide

theorem witness_CapHighEdge :
    (running .capHigh opRead).busy = true ∧ (running .capHigh opRead).phase = .capHigh ∧
    (running .capHigh opRead).hostPins.rst = false := by decide

theorem witness_CapLowEdge :
    (running .capLow opRead).busy = true ∧ (running .capLow opRead).phase = .capLow ∧
    ({ running .capLow opRead with durCount := 95 } : State).durCount.toNat ≤ 95 ∧
    (running .capLow opRead).hostPins.rst = false ∧ (running .capLow opRead).sync2 = true ∧
    ({ running .capLow opRead with sync2 := false } : State).sync2 = false := by decide

theorem witness_Synchroniser : calm.noResetFor 2 := by decide

theorem witness_TimebaseSteps :
    calm.hostPins.rst = false ∧ calm.pre = calm.params.ticksPerUs - 1 ∧
    State.pre { calm with params := { ticksLess1 := 1, selOffRst := 0, selOnRst := 0 } } ≠
      Params.ticksPerUs { ticksLess1 := 1, selOffRst := 0, selOnRst := 0 } - 1 := by decide

theorem witness_TimebaseCounts :
    calm.prescalerInRange ∧ calm.noResetFor 4 ∧ ∃ t, runFor 4 calm = some t ∧ t.us = 4 :=
  ⟨by decide, by decide, _, rfl, by decide⟩

/-- SELECT with holds of 1 microsecond: the first hold lasts one edge, the select two. -/
def selecting : State := { writing 0x00000002 with selOffUs := 1, selOnUs := 1 }

theorem witness_Holds_off :
    selecting.busy = false ∧ selecting.phase = .idle ∧ selecting.prescalerInRange ∧
    (Instr.select 0 = .read 0 ∨ Instr.select 0 = .select 0) ∧
    selecting.writesCommand (.select 0) [quiet, quiet, quiet] ∧
    1 = max 1 (selecting.selOffUs.toNat * selecting.params.ticksPerUs - selecting.pre) ∧
    selecting.noResetFor (1 + 1) ∧ ∃ u, runFor 1 selecting = some u ∧ u.phase = .selOff ∧ u.tx = false :=
  ⟨rfl, rfl, by decide, .inr rfl, by decide, by decide, by decide, _, rfl, by decide, by decide⟩

/-- The same for READ, with two ticks per microsecond and PRE = 1: 2·2 − 1 = 3 edges. -/
theorem witness_Holds_off_read :
    let s : State :=
      { writing 0xFF01 with selOffUs := 2, pre := 1, params := { ticksLess1 := 1, selOffRst := 0, selOnRst := 0 } }
    s.busy = false ∧ s.phase = .idle ∧ s.prescalerInRange ∧
    (Instr.read 255 = .read 255 ∨ Instr.read 255 = .select 255) ∧
    s.writesCommand (.read 255) [quiet, quiet, quiet] ∧
    3 = max 1 (s.selOffUs.toNat * s.params.ticksPerUs - s.pre) ∧ s.noResetFor (3 + 1) ∧
    ∃ u, runFor 3 s = some u ∧ u.phase = .selOff ∧ u.tx = false :=
  ⟨rfl, rfl, by decide, .inl rfl, by decide, by decide, by decide, _, rfl, by decide, by decide⟩

/-- A later off hold, begun at the end of an on hold with two pulses left. -/
theorem witness_Holds_off_later :
    let s : State := { running .selOn opRead with selRemain := 2, us := 5, tx := true, selOffUs := 1 }
    s.inv ∧ s.phase = .selOn ∧ s.selOnUs.toNat ≤ (s.us - s.tStart).toNat ∧ 1 < s.selRemain.toNat ∧
    1 = max 1 (s.selOffUs.toNat * s.params.ticksPerUs - s.pre) ∧ s.noResetFor (1 + 1) ∧
    ∃ u, runFor 1 s = some u ∧ u.phase = .selOff ∧ u.tx = false :=
  ⟨by decide, rfl, by decide, by decide, by decide, by decide, _, rfl, by decide, by decide⟩

theorem witness_Holds_on :
    let s : State := { running .selOff opRead with selRemain := 1, us := 3, selOnUs := 0 }
    s.inv ∧ s.phase = .selOff ∧ s.selOffUs.toNat ≤ (s.us - s.tStart).toNat ∧
    1 = max 1 (s.selOnUs.toNat * s.params.ticksPerUs - s.pre) ∧ s.noResetFor (1 + 1) ∧
    ∃ u, runFor 1 s = some u ∧ u.phase = .selOn ∧ u.tx = true :=
  ⟨by decide, rfl, by decide, by decide, by decide, _, rfl, by decide, by decide⟩

theorem witness_SelectEnds :
    selecting.busy = false ∧ selecting.phase = .idle ∧ selecting.params.ticksPerUs = 1 ∧ selecting.pre = 0 ∧
    1 ≤ selecting.selOffUs.toNat ∧ 1 ≤ selecting.selOnUs.toNat ∧
    selecting.writesCommand (.select 0) [quiet, quiet, quiet] ∧
    2 = ((0 : Sensor).toNat + 1) * (selecting.selOffUs.toNat + selecting.selOnUs.toNat) ∧
    selecting.noResetFor (2 + 1) := by decide

/-- A low phase of one edge, the 96th pulse, with the shortest timeout it meets. -/
def lastPulse : State :=
  { running .capHigh opRead with durCount := 95, timeoutUs := 1, sync2 := false, sync1 := true }

theorem witness_MeasuredWidth :
    lastPulse.busy = true ∧ lastPulse.phase = .capHigh ∧ lastPulse.durCount.toNat ≤ 95 ∧
    lastPulse.params.ticksPerUs = 1 ∧ lastPulse.pre = 0 ∧ 1 ≤ 1 ∧
    (lastPulse.toEn = false ∨ 1 ≤ lastPulse.timeoutUs.toNat) ∧
    lastPulse.sync2 :: lastPulse.sync1 :: lastPulse.rxWave =
      List.replicate 1 false ++ true :: [true, true, true, true] ∧
    lastPulse.noResetFor (1 + 1) := by decide

theorem witness_EveryCommandEnds : (running .capHigh opRead).inv ∧ (running .capHigh opRead).toEn = true := by
  decide

theorem witness_CaptureBound :
    (writing 0x0003).inv ∧ (writing 0x0003).busy = false ∧ (writing 0x0003).toEn = true ∧
    (writing 0x0003).writesCommand (.capture 0) [quiet, quiet, quiet] := by decide

theorem witness_SilentLine_high :
    (running .capHigh opRead).busy = true ∧ (running .capHigh opRead).phase = .capHigh ∧
    ({ running .capHigh opRead with toEn := false } : State).toEn = false ∧
    (running .capHigh opRead).sync1 = true ∧ (running .capHigh opRead).sync2 = true ∧
    4 ≤ (running .capHigh opRead).rxWave.length ∧
    (∀ b ∈ (running .capHigh opRead).rxWave.take 4, b = true) ∧ (running .capHigh opRead).noResetFor 4 := by
  decide

theorem witness_SilentLine_low :
    let s : State :=
      { running .capLow opRead with toEn := false, sync1 := false, sync2 := false, rxWave := [false] }
    s.busy = true ∧ s.phase = .capLow ∧ s.toEn = false ∧ s.sync1 = false ∧ s.sync2 = false ∧
    1 ≤ s.rxWave.length ∧ (∀ b ∈ s.rxWave.take 1, b = false) ∧ s.noResetFor 1 := by decide

/-- Counts on both sides of 96: the decoded-bits and the uniform statements' NO_RESPONSE. -/
theorem witness_DecodedBits : (95 : BitVec 7) ≠ 96 ∧ (97 : BitVec 7) ≠ 96 ∧ (127 : BitVec 7) ≠ 96 := by decide

theorem witness_Uniform :
    (∀ i : Fin 96, 26 < (Vector.replicate 96 (27 : Duration))[i].toNat) ∧
    (∀ i : Fin 96, (Vector.replicate 96 (26 : Duration))[i].toNat ≤ 26) := by decide

theorem witness_BaseSeg :
    baseSeg exampleFrame = 3 ∧ baseSeg (Vector.replicate 12 0xFF) = 1 ∧ baseSeg (Vector.replicate 12 0) = 11 := by
  decide

/-- The sum of 45_frame_validator.md R294 for the example frame: base_seg is 3. -/
theorem witness_ValidationSteps :
    ((46 : Int) =
      ((∑ i ∈ Finset.Icc 2 (baseSeg exampleFrame), (exampleFrame.toList.getD i 0).toNat : Nat) - 2 : Int) % 256) ∧
    (13 : BitVec 4) ≠ 12 ∧ exampleFrame[0].toNat / 16 = 9 ∧ (46 : Int) = exampleFrame[1].toNat ∧
    (exampleFrame.set 0 0x8F)[0].toNat / 16 ≠ 9 ∧ (46 : Int) ≠ (exampleFrame.set 1 0x2F)[1].toNat := by decide

theorem witness_Framed :
    [0x10, 0x20].length ≤ 10 ∧ [(0x10 : Byte), 0x20].getLast? ≠ some 0xFF ∧
    ([(0x10 : Byte), 0x20][1]? = some 0 → [(0x10 : Byte), 0x20][0]? = some 0) ∧
    ([] : List Byte).getLast? ≠ some 0xFF ∧
    ([(0 : Byte), 0][1]? = some 0 → [(0 : Byte), 0][0]? = some 0) := by decide

theorem witness_Corrupted :
    validate (.bytes exampleFrame 12) = .segs [0x10, 0x20] ∧ (8 : BitVec 4) ≠ 9 ∧ (10 : BitVec 4) ≠ 9 := by decide

theorem witness_RealSentinel :
    1 ≤ 1 ∧ [(0x10 : Byte)].length + 9 ≤ 10 ∧ [(0x10 : Byte)].getLast? ≠ some 0xFF ∧
    ([] : List Byte).length + 10 ≤ 10 ∧ ([] : List Byte).getLast? ≠ some 0xFF := by decide

theorem witness_CalibratedLevel :
    (∀ x ∈ [(0 : Byte), 0], x = 0) ∧ (∃ x ∈ [(0 : Byte), 5], x ≠ 0) := by decide

/-- The hypotheses of the uncalibrated statement, together. -/
abbrev uncalibratedHyps (seg : List Byte) (ls : Nat) (x : Byte) (n k a : Nat) : Prop :=
  seg[ls]? = some x ∧ x ≠ 0 ∧ (∀ i, i < ls → seg[i]? = some 0) ∧ n = seg.length ∧ k = n - 1 - ls ∧
    a = ((seg.drop (ls + 1)).map BitVec.toNat).sum

/-- The four branches: no segment after, all zero after, the clamp, the formula. -/
theorem witness_Uncalibrated :
    uncalibratedHyps [0, 7] 1 7 2 0 0 ∧ uncalibratedHyps [0, 5, 0] 1 5 3 1 0 ∧
    (uncalibratedHyps [255, 100] 0 255 2 1 100 ∧ 100 * (100 * 2) < 100 * 1 * (255 + 100)) ∧
    (uncalibratedHyps [200, 255, 255] 0 200 3 2 510 ∧ ¬ 100 * (510 * 3) < 100 * 2 * (200 + 510)) := by decide

theorem witness_LevelPairs :
    (List.replicate 10 (255 : Byte)).length ≤ 10 ∧
    level (List.replicate 10 255) none = .pct 2295000 22950 ∧
    level (List.replicate 10 255) (some 1) = .pct 255000 1 := by decide

theorem witness_SourceFormula :
    [(7 : Byte)][0]? = some 7 ∧ (7 : Byte) ≠ 0 ∧ (∀ i, i < 0 → [(7 : Byte)][i]? = some 0) ∧
    0 = [(7 : Byte)].length - 1 - 0 ∧
    (255 : ℚ) = (if 0 = 0 then 255 else ((([(7 : Byte)].drop (0 + 1)).map BitVec.toNat).sum : ℚ) / (0 : Nat)) ∧
    level [7] none = .pct 700 255 :=
  ⟨by decide, by decide, by decide, by decide, (if_pos rfl).symm, by decide⟩

theorem witness_AddressMap :
    (Reg.dur 95).offset = some 0x27C ∧ Reg.ctrl.offset = some 0 ∧ Reg.unmapped.offset = none ∧
    regAt 0x27F = .dur 95 ∧ regAt 0x280 = .unmapped ∧ regAt 0x03C = .unmapped ∧ regAt 0x03B = .usNow := by decide

theorem witness_Polling : ∃ t, runFor 2 { calm with host := [pinsOf (.read 8), quiet] } = some t ∧ t.edge = 2 :=
  ⟨_, rfl, rfl⟩

theorem witness_Harmless :
    regAt 0x018 = .levelNum ∧ regAt 0x01F = .levelDen ∧ regAt 0x020 = .cntNoresp ∧ regAt 0x024 = .cntPreamble ∧
    regAt 0x028 = .cntChecksum ∧ regAt 0x038 = .usNow ∧ regAt 0xFFF = .unmapped ∧
    (regAt 0x005 = .cmd ∧ opField 0xFFFF00F0 = 0) := by decide

theorem witness_Store :
    (Reg.segCount).offset = some 0x034 ∧ (Reg.segCount).access = .rwIdle ∧
    (Reg.dur 95).offset = some 0x27C ∧ (Reg.dur 95).access = .rwIdle ∧ calm.busy = false ∧ calm.phase = .idle := by
  decide

/-- A W1C of DONE at an end edge, and one while idle. -/
theorem witness_StatusWrite :
    (running .eval opLevel).inv ∧ ({ calm with done := true } : State).inv ∧ regAt 0x00B = .status :=
  ⟨by decide, by decide, by decide⟩

theorem witness_ResetEdge :
    ({ running .capLow opRead with host := [{ quiet with rst := true }] } : State).hostPins.rst = true := by decide

theorem witness_StepKeeps :
    (running .eval opRead).inv ∧ ∃ t, step (running .eval opRead) = .next t ∧ t.busy = false :=
  ⟨by decide, _, rfl, by decide⟩

theorem witness_Parameters : ∃ t, runFor 1 calm = some t ∧ t.params = calm.params := ⟨_, rfl, rfl⟩

theorem witness_Counters_clear :
    (writing 0x7).inv ∧ (writing 0x7).hostPins.rst = false ∧
    (writing 0x7).command = some .clrcnt ∧ (writing 0x7).busy = false ∧
    ∃ t, step (writing 0x7) = .next t ∧ t.cntNoresp = 0 :=
  ⟨by decide, rfl, by decide, rfl, _, rfl, by decide⟩

theorem witness_Counters_fail :
    (running .eval opValidate).inv ∧ (running .eval opValidate).phase = .eval ∧
    evalCommand opValidate (running .eval opValidate) = some (.fail .noResponse none) ∧
    evalCommand opDecode { running .eval opDecode with durCount := 96 } =
      some (.fail .preambleInvalid (some (.bytes (Vector.replicate 12 0) 12))) ∧
    evalCommand opValidate { running .eval opValidate with frame := exampleFrame.set 1 0, frameCount := 12 } =
      some (.fail .checksumMismatch none) := by decide

/-- TX changes by each of its writers. -/
theorem witness_Tx :
    ({ running .selOff opRead with selRemain := 1, us := 3 } : State).inv ∧
    after { running .selOff opRead with selRemain := 1, us := 3 } State.tx = some true ∧
    ({ running .selOn opRead with selRemain := 2, us := 5, tx := true } : State).inv ∧
    after { running .selOn opRead with selRemain := 2, us := 5, tx := true } State.tx = some false ∧
    ({ writing 0x1 with tx := true } : State).inv ∧ after { writing 0x1 with tx := true } State.tx = some false ∧
    after { calm with host := [pinsOf (.write 0x000 0x4)] } State.tx = some true :=
  ⟨by decide, by decide, by decide, by decide, by decide, by decide, by decide⟩

theorem witness_Configuration :
    let s : State := { running .capLow opRead with host := [pinsOf (.write 0x00C 5)] }
    s.busy = true ∧ s.hostPins.rst = false ∧ ∃ t, step s = .next t ∧ t.timeoutUs = 0x2710 :=
  ⟨rfl, rfl, _, rfl, by decide⟩

theorem witness_Results :
    (running .capLow opRead).inv ∧ (running .capLow opRead).busy = true ∧
    (running .capLow opRead).hostPins.rst = false ∧
    ∃ t, step (running .capLow opRead) = .next t ∧ t.busy = true :=
  ⟨by decide, rfl, rfl, _, rfl, by decide⟩

theorem witness_Irq_end :
    let s : State := { running .eval opLevel with ie := true }
    s.inv ∧ s.hostPins.rst = false ∧ s.irq = false ∧ ∃ t, step s = .next t ∧ t.irq = true :=
  ⟨by decide, rfl, rfl, _, rfl, by decide⟩

theorem witness_Irq_enable :
    let s : State := { calm with done := true, host := [pinsOf (.write 0x000 0x2)] }
    s.inv ∧ s.hostPins.rst = false ∧ s.irq = false ∧ ∃ t, step s = .next t ∧ t.irq = true :=
  ⟨by decide, rfl, rfl, _, rfl, by decide⟩

/-- Two states that differ in DUR_COUNT and SEG_COUNT, both starting a READ and a CAPTURE. -/
theorem witness_CaptureOutcome :
    let s1 := writing 0xFF01
    let s2 : State := { s1 with durCount := 96, segCount := 10 }
    (∃ sensor, Instr.read 255 = .read sensor ∨ Instr.read 255 = .capture sensor) ∧
    s1.inv ∧ s1.busy = false ∧ s2 = s1.withDataOf s2 ∧ s1.writesCommand (.read 255) [quiet, quiet, quiet] ∧ 1 ≤ 1 ∧
    (∀ m u, 1 ≤ m → m < 1 → runFor m s1 = some u → u.busy = true) ∧
    (∃ t1, runFor 1 s1 = some t1 ∧ t1.busy = true) ∧ (∃ t2, runFor 1 s2 = some t2 ∧ t2.durCount = 96) ∧
    (writing 0x0003).writesCommand (.capture 0) [quiet, quiet, quiet] :=
  ⟨⟨255, .inl rfl⟩, by decide, rfl, rfl, by decide, by decide, fun m u h1 h2 => by omega,
    ⟨_, rfl, by decide⟩, ⟨_, rfl, by decide⟩, by decide⟩

/-- A CAPTURE that times out at once, from its start to its end edge, and the same with other old data. -/
theorem witness_CaptureOutcome_end :
    let s1 : State := { writing 0x0003 with timeoutUs := 0 }
    let s2 : State := { s1 with durCount := 96, segCount := 10 }
    (∃ sensor, Instr.capture 0 = .read sensor ∨ Instr.capture 0 = .capture sensor) ∧
    s1.inv ∧ s1.busy = false ∧ s2 = s1.withDataOf s2 ∧ s1.writesCommand (.capture 0) [quiet, quiet, quiet] ∧ 1 ≤ 3 ∧
    (∀ m u, 1 ≤ m → m < 3 → runFor m s1 = some u → u.busy = true) ∧
    (∃ t1, runFor 3 s1 = some t1 ∧ t1.busy = false ∧ t1.result = .noResponse) ∧
    (∃ t2, runFor 3 s2 = some t2 ∧ t2.busy = false) :=
  ⟨⟨0, .inr rfl⟩, by decide, rfl, rfl, by decide, by decide,
    fun m u h1 h2 h => by
      rcases (by omega : m = 1 ∨ m = 2) with rfl | rfl
      · cases h; rfl
      · cases h; rfl,
    ⟨_, rfl, by decide, by decide⟩, ⟨_, rfl, by decide⟩⟩

end Sys2Proof.Tests
end

/-! The host's access to the register port (40_host_access.md): the address map, and what an edge with a
write on the port does, as an equation with the edge without a port operation. -/

namespace Sys2Proof.Machine

/-! ## The address map (40_host_access.md R160, R161) -/

theorem wordIndex_eq_div (a : Addr) : wordIndex a = a.toNat / 4 := by
  have := a.isLt
  simp only [wordIndex, BitVec.extractLsb'_toNat, Nat.shiftRight_eq_div_pow]
  omega

/-- The two lowest address bits do not count (20_memory.md R104). -/
theorem wordIndex_ofNat_add (w k : Nat) (hw : w < 1024) (hk : k < 4) :
    wordIndex (BitVec.ofNat 12 (4 * w) + BitVec.ofNat 12 k) = w := by
  rw [wordIndex_eq_div, BitVec.toNat_add, BitVec.toNat_ofNat, BitVec.toNat_ofNat]
  omega

/-- The word index of each register of the map (10_state.md section 2). -/
def Reg.index : Reg → Option Nat
  | .ctrl => some 0
  | .cmd => some 1
  | .status => some 2
  | .timeout => some 3
  | .selOff => some 4
  | .selOn => some 5
  | .levelNum => some 6
  | .levelDen => some 7
  | .cntNoresp => some 8
  | .cntPreamble => some 9
  | .cntChecksum => some 10
  | .durCount => some 11
  | .frameCount => some 12
  | .segCount => some 13
  | .usNow => some 14
  | .cal i => some (16 + i)
  | .frame i => some (32 + i)
  | .seg i => some (48 + i)
  | .dur i => some (64 + i)
  | .unmapped => none

theorem offset_eq_index (r : Reg) : r.offset = r.index.map fun w => BitVec.ofNat 12 (4 * w) := by
  cases r <;> simp [Reg.offset, Reg.index, Nat.mul_add]

theorem index_lt {r : Reg} {w : Nat} (h : r.index = some w) : w < 1024 := by
  cases r <;> simp only [Reg.index, Option.some.injEq, reduceCtorEq] at h <;> omega

theorem regAtIndex_index {r : Reg} {w : Nat} (h : r.index = some w) : regAtIndex w = r := by
  cases r <;> simp only [Reg.index, Option.some.injEq, reduceCtorEq] at h <;> subst h
  case cal i | frame i | seg i | dur i =>
    unfold regAtIndex
    split
    case h_16 => simp (disch := omega) only [dif_pos, dif_neg, Nat.add_sub_cancel_left]
    all_goals omega
  all_goals rfl

theorem regAtIndex_eq_unmapped_iff (w : Nat) : regAtIndex w = .unmapped ↔
    w = 15 ∨ (24 ≤ w ∧ w < 32) ∨ (44 ≤ w ∧ w < 48) ∨ (58 ≤ w ∧ w < 64) ∨ 160 ≤ w := by
  unfold regAtIndex
  split
  case h_16 =>
    simp only [imp_false] at *
    split_ifs <;> simp only [false_iff, true_iff] <;> omega
  all_goals simp

/-- Every register is reached at its offset, whatever a[1:0]. -/
theorem regAt_offset_add {r : Reg} {off : Addr} (h : r.offset = some off) (k : Fin 4) :
    regAt (off + BitVec.ofNat 12 k) = r := by
  rw [offset_eq_index, Option.map_eq_some_iff] at h
  obtain ⟨w, hw, rfl⟩ := h
  rw [regAt, wordIndex_ofNat_add w k (index_lt hw) k.isLt, regAtIndex_index hw]

theorem regAt_offset {r : Reg} {off : Addr} (h : r.offset = some off) : regAt off = r := by
  simpa using regAt_offset_add h 0

/-- Settles O43: a register's word index is its offset over 4, and the indices no register has are the
five unmapped ranges over 4. -/
theorem addressMapIsTheTable : Obligations.AddressMapIsTheTable := by
  refine ⟨fun r off h k => regAt_offset_add h k, fun a => ?_⟩
  rw [regAt, regAtIndex_eq_unmapped_iff, wordIndex_eq_div]
  omega

/-! ## The edge of a host that carries out one port operation -/

@[simp] theorem asks_rst (s : State) (op : BusOp) : (s.asks op).hostPins.rst = false := by
  cases op <;> rfl

@[simp] theorem asks_busOp (s : State) (op : BusOp) : (s.asks op).busOp = op := by
  cases op <;> rfl

/-- An edge whose port operation is no command. -/
theorem step_asks_of_no_command (s : State) (op : BusOp) (h : (s.asks op).command = none) :
    step (s.asks op) = .next (advance (s.asks op) (portEffect (s.asks op))) := by
  rw [step, asks_rst, h]
  rfl

/-! ## What no unit reads: BUSY, DONE, IGN and the host's script

A unit's writes are the same whatever these hold, and it writes BUSY and DONE only at a command's end. So the
port's writes to the flags and the units' writes of the same edge can be taken apart. -/

/-- `t` with the fields of `v` that no unit reads. -/
def State.withUnreadOf (t v : State) : State :=
  { t with busy := v.busy, done := v.done, ign := v.ign, host := v.host }

/-- The units end the running command at the coming edge: by its evaluation, or at the end of a SELECT's
last pulse (41_commands.md R191). -/
def State.endsCommand (s : State) : Bool :=
  match s.phase with
  | .idle => false
  | .selOff => false
  | .selOn => hasElapsed s.us s.tStart s.selOnUs && !decide (1 < s.selRemain.toNat) && s.curOp == opSelect
  | .capHigh => false
  | .capLow => false
  | .eval => true

/-- `end()` if the units end the running command at the coming edge of `s`. -/
def State.endedBy (v s : State) : State := if s.endsCommand then v.endCommand else v

theorem endedBy_of_ends {s : State} (v : State) (h : s.endsCommand = true) : v.endedBy s = v.endCommand :=
  if_pos h

theorem endedBy_of_runs {s : State} (v : State) (h : s.endsCommand = false) : v.endedBy s = v := by
  simp [State.endedBy, h]

theorem commitFrame_withUnreadOf (fo : Option Frame) (t v : State) :
    commitFrame fo (t.withUnreadOf v) = (commitFrame fo t).withUnreadOf v := by
  rcases fo with _ | _ | ⟨b, cnt⟩ <;> rfl

theorem raiseFailure_withUnreadOf (op : Opcode) (c : FailCode) (fo : Option Frame) (t v : State) :
    raiseFailure op c fo (t.withUnreadOf v) = (raiseFailure op c fo t).withUnreadOf v := by
  simp only [raiseFailure, commitFrame_withUnreadOf]
  split <;> cases c <;> rfl

theorem commitSegs_withUnreadOf (op : Opcode) (seg : List Byte) (t v : State) :
    commitSegs op seg (t.withUnreadOf v) = (commitSegs op seg t).withUnreadOf v := by
  unfold commitSegs
  split <;> rfl

theorem commitLevel_withUnreadOf (lv : LevelResult) (t v : State) :
    commitLevel lv (t.withUnreadOf v) = (commitLevel lv t).withUnreadOf v := by
  cases lv <;> rfl

theorem commit_withUnreadOf (op : Opcode) (e : EvalResult) (t v : State) :
    commit op e (t.withUnreadOf v) = (commit op e t).withUnreadOf v := by
  cases e with
  | fail c fo => exact raiseFailure_withUnreadOf op c fo t v
  | done fo seg lv =>
    simp only [commit, commitFrame_withUnreadOf, commitSegs_withUnreadOf, commitLevel_withUnreadOf]

theorem endsCommand_of_selOn {s : State} (hp : s.phase = .selOn) : s.endsCommand = true ↔
    hasElapsed s.us s.tStart s.selOnUs = true ∧ ¬ 1 < s.selRemain.toNat ∧ s.curOp = opSelect := by
  simp only [State.endsCommand, hp, Bool.and_eq_true, Bool.not_eq_true', decide_eq_false_iff_not, beq_iff_eq,
    and_assoc]

theorem selectDone_withUnreadOf (s t v : State) :
    selectDone s (t.withUnreadOf v) =
      (selectDone s t).withUnreadOf (if s.curOp = opSelect then v.endCommand else v) := by
  unfold selectDone
  by_cases hread : s.curOp = opRead
  · rw [if_pos hread, if_pos hread, if_neg (by rw [hread]; decide)]; rfl
  · rw [if_neg hread, if_neg hread]
    split <;> rfl

theorem selOnStep_withUnreadOf (s t v : State) (hp : s.phase = .selOn) :
    selOnStep s (t.withUnreadOf v) = (selOnStep s t).withUnreadOf (v.endedBy s) := by
  simp only [selOnStep, State.endedBy, endsCommand_of_selOn hp]
  by_cases hel : hasElapsed s.us s.tStart s.selOnUs = true
  · by_cases hrem : 1 < s.selRemain.toNat
    · simp only [hel, hrem, not_true_eq_false, false_and, and_false, if_true, if_false]; rfl
    · simp only [hel, hrem, not_false_eq_true, true_and, if_true, if_false, selectDone_withUnreadOf]
  · simp only [hel]; rfl

theorem evalStep_withUnreadOf (s t v : State) :
    evalStep s (t.withUnreadOf v) = (evalStep s t).withUnreadOf v.endCommand := by
  unfold evalStep
  cases evalCommand s.curOp s with
  | none => rfl
  | some e => simp only [commit_withUnreadOf]; rfl

/-- The units do not depend on the unread fields, and end the command or leave BUSY and DONE. -/
theorem phaseStep_withUnreadOf (s t v : State) :
    phaseStep s (t.withUnreadOf v) = (phaseStep s t).withUnreadOf (v.endedBy s) := by
  cases hp : s.phase with
  | selOn => simp only [phaseStep_selOn _ _ hp, selOnStep_withUnreadOf s t v hp]
  | eval =>
    have he : s.endsCommand = true := by rw [State.endsCommand, hp]
    rw [endedBy_of_ends v he, phaseStep_eval _ _ hp, phaseStep_eval _ _ hp, evalStep_withUnreadOf]
  | idle =>
    have he : s.endsCommand = false := by rw [State.endsCommand, hp]
    rw [endedBy_of_runs v he, phaseStep_idle _ _ hp, phaseStep_idle _ _ hp]
  | selOff | capHigh | capLow =>
    have he : s.endsCommand = false := by rw [State.endsCommand, hp]
    simp only [endedBy_of_runs v he, phaseStep, hp, selOffStep, capHighStep, capLowStep]
    split_ifs <;> rfl

/-- The rest of an edge does not depend on the unread fields: from those of `v` it goes on as from its own,
and ends the command in `v` if it ends it at all. -/
theorem advance_withUnreadOf (s t v : State) :
    advance s (t.withUnreadOf v) =
      { advance s t with busy := (v.endedBy s).busy, done := (v.endedBy s).done, ign := (v.endedBy s).ign } := by
  rw [advance, phaseStep_withUnreadOf]
  rfl

/-- BUSY and DONE after an edge: what the port left, or those of a command's end. -/
theorem advance_busy_done (s t : State) :
    (advance s t).busy = (t.endedBy s).busy ∧ (advance s t).done = (t.endedBy s).done := by
  have h := advance_withUnreadOf s t t
  have hb := congrArg State.busy h
  have hd := congrArg State.done h
  exact ⟨hb, hd⟩

/-- The host's pins of the coming edge count through the port operation only. -/
theorem advance_drive_left (s t : State) (p : HostPins) : advance (s.drive p) t = advance s t := rfl

theorem advance_drive_right (s t : State) (p : HostPins) : advance s (t.drive p) = advance s t :=
  calc
    advance s (t.drive p) = advance s (t.withUnreadOf (t.drive p)) := rfl
    _ = advance s (t.withUnreadOf t) := by
      rw [advance_withUnreadOf, advance_withUnreadOf]
      cases he : s.endsCommand with
      | true => rw [endedBy_of_ends _ he, endedBy_of_ends _ he]; rfl
      | false => rw [endedBy_of_runs _ he, endedBy_of_runs _ he]; rfl
    _ = advance s t := rfl

/-! ## What an edge with a write does -/

theorem hostWrite_drive (r : Reg) (d : Word) (s : State) (p : HostPins) :
    hostWrite r d (s.drive p) = (hostWrite r d s).drive p := by
  have hstore : store r d (s.drive p) = (store r d s).drive p := by cases r <;> rfl
  rw [hostWrite, hostWrite, hstore, drive_busy]
  cases r.access <;> cases s.busy <;> rfl

/-- An edge without a port operation. -/
theorem step_asks_none (s : State) : step (s.asks .none) = .next (advance s s) := by
  rw [step_asks_of_no_command _ _ (by rw [State.command, asks_busOp]), portEffect, asks_busOp]
  simp only [advance_drive_left, advance_drive_right]

/-- An edge with a write to a register other than CMD. -/
theorem step_asks_write {s : State} {a : Addr} (d : Word) (h : regAt a ≠ .cmd) :
    step (s.asks (.write a d)) = .next (advance s (hostWrite (regAt a) d s)) := by
  have hcmd : (s.asks (.write a d)).command = none := by simp [State.command, h]
  have hport : portEffect (s.asks (.write a d)) = (hostWrite (regAt a) d s).drive (pinsOf (.write a d)) := by
    simp [portEffect, h, hostWrite_drive]
  rw [step_asks_of_no_command _ _ hcmd, hport, advance_drive_left, advance_drive_right]

theorem decode_of_opField_zero {d : Word} (h : opField d = 0) : decode d = .ok .nop := by
  simp [decode, h]

/-- An edge with a NOP. -/
theorem step_asks_nop {s : State} {a : Addr} {d : Word} (ha : regAt a = .cmd) (hd : opField d = 0) :
    step (s.asks (.write a d)) = .next (advance s s) := by
  have hcmd : (s.asks (.write a d)).command = some .nop := by
    simp [State.command, ha, decode_of_opField_zero hd]
  rw [step, asks_rst, hcmd]
  simp only [exec, execNop, finishEdge, advance_drive_left, advance_drive_right, Bool.false_eq_true, if_false]

/-- Settles O47: the port's write leaves the pre-edge state, so the edge is the one without it. -/
theorem harmlessWritesChangeNothing : Obligations.HarmlessWritesChangeNothing := by
  intro s a d h
  rw [step_asks_none]
  rcases h with h | h | h | h | h | h | h | ⟨h, hop⟩
  case inr.inr.inr.inr.inr.inr.inr => exact step_asks_nop h hop
  all_goals rw [step_asks_write d (by simp [h]), h]; rfl

theorem busy_of_endsCommand {s : State} (hinv : s.busyMatchesPhase) (he : s.endsCommand = true) :
    s.busy = true :=
  hinv.mpr fun hp => by simp [State.endsCommand, hp] at he

/-- Settles O49: the W1C write changes DONE and IGN, which no unit reads, and the unit that ends the command
sets DONE after it. -/
theorem statusWriteClearsItsFlags : Obligations.StatusWriteClearsItsFlags := by
  intro s a d ⟨hbusy, _⟩ ha
  refine ⟨advance s s, step_asks_none s, ?_⟩
  have hw : hostWrite (regAt a) d s = s.withUnreadOf (s.clearFlags d) := by rw [ha]; rfl
  obtain ⟨hb, hd⟩ := advance_busy_done s s
  rw [step_asks_write d (by simp [ha]), hw, advance_withUnreadOf, hb, hd]
  cases he : s.endsCommand with
  | true => simp [endedBy_of_ends _ he, busy_of_endsCommand hbusy he]
  | false => simp [endedBy_of_runs _ he]

/-! ## Stores to the RW-idle registers (40_host_access.md R163, R168) -/

theorem vector_set_get_of_ne {α : Type} {n : Nat} (v : Vector α n) {i j : Fin n} (x : α) (h : j ≠ i) :
    (v.set i x)[j] = v[j] :=
  Vector.getElem_set_ne _ _ fun hij => h (Fin.ext hij.symm)

/-- A field in the lowest bits, the bits above it 0. -/
theorem zeroExtend_lowField (d : Word) (n : Nat) (h : n ≤ 32) :
    (d.extractLsb' 0 n).zeroExtend 32 = d &&& BitVec.ofNat 32 (2 ^ n - 1) := by
  have hpow : 2 ^ n ≤ 2 ^ 32 := Nat.pow_le_pow_right (by decide) h
  have hpos : 0 < 2 ^ n := Nat.two_pow_pos n
  apply BitVec.eq_of_toNat_eq
  rw [BitVec.toNat_setWidth_of_le h, BitVec.extractLsb'_toNat, Nat.shiftRight_zero, BitVec.toNat_and,
    BitVec.toNat_ofNat, Nat.mod_eq_of_lt (by omega : 2 ^ n - 1 < 2 ^ 32), Nat.and_two_pow_sub_one_eq_mod]

/-- The three fields of CTRL. -/
theorem ctrlFields (d : Word) :
    0#29 ++ BitVec.ofBool (d.getLsbD 2) ++ BitVec.ofBool (d.getLsbD 1) ++ BitVec.ofBool (d.getLsbD 0) =
      d &&& 0x00000007 := by
  apply BitVec.eq_of_getLsbD_eq
  intro k hk
  rw [show (0x00000007 : Word) = 0#29 ++ BitVec.allOnes 3 by decide]
  simp only [BitVec.getLsbD_append, BitVec.getLsbD_and]
  rcases k with _ | _ | _ | k <;> simp

/-- VALID and REF of a CAL entry. -/
theorem calFields (d : Word) :
    BitVec.ofBool (d.getLsbD 31) ++ 0#15 ++ d.extractLsb' 0 16 = d &&& 0x8000FFFF := by
  apply BitVec.eq_of_getLsbD_eq
  intro k hk
  rw [show (0x8000FFFF : Word) = 1#1 ++ 0#15 ++ BitVec.allOnes 16 by decide]
  simp only [BitVec.getLsbD_append, BitVec.getLsbD_and]
  by_cases hlo : k < 16
  · simp [hlo, -BitVec.reduceAllOnes]
  by_cases hmid : k < 31
  · simp [hlo, show k - 16 < 15 by omega]
  · obtain rfl : k = 31 := by omega
    simp

/-- SEG_COUNT's field, made legal. -/
theorem segCountField (d : Word) : (legalSegCount (d.extractLsb' 0 4)).zeroExtend 32 =
    if 10 < (d &&& 0x0000000F).toNat then 10 else d &&& 0x0000000F := by
  have hlow : d &&& 0x0000000F = (d.extractLsb' 0 4).zeroExtend 32 :=
    (zeroExtend_lowField d 4 (by decide)).symm
  rw [hlow, legalSegCount, BitVec.toNat_setWidth_of_le (by decide)]
  split <;> rfl

/-- A load after a store to the same register. -/
theorem readval_store_same {r : Reg} (d : Word) (s : State) (h : r.access = .rwIdle) :
    readval r (store r d s) = r.storedWord d := by
  cases r <;> simp only [Reg.access, reduceCtorEq] at h
  all_goals simp only [readval, store, Reg.storedWord, Fin.getElem_fin, Vector.getElem_set_self]
  case ctrl => exact ctrlFields d
  case cal => exact calFields d
  case segCount => exact segCountField d
  all_goals exact zeroExtend_lowField d _ (by decide)

/-- A load after a store to another register: only the elements of one array share a field, and only CTRL's
TX shows in another register, STATUS. -/
theorem readval_store_of_ne {r r' : Reg} (d : Word) (s : State) (hne : r' ≠ r) (hst : r' ≠ .status) :
    readval r' (store r d s) = readval r' s := by
  cases r <;> cases r' <;> try contradiction
  case cal.cal i j => simp only [readval, store, vector_set_get_of_ne _ _ fun h => hne (congrArg Reg.cal h)]
  case frame.frame i j =>
    simp only [readval, store, vector_set_get_of_ne _ _ fun h => hne (congrArg Reg.frame h)]
  case seg.seg i j => simp only [readval, store, vector_set_get_of_ne _ _ fun h => hne (congrArg Reg.seg h)]
  case dur.dur i j => simp only [readval, store, vector_set_get_of_ne _ _ fun h => hne (congrArg Reg.dur h)]
  all_goals rfl

/-- While no command runs, an edge leaves what the port wrote, but for what every edge moves on. -/
theorem advance_of_idle {s : State} (t : State) (h : s.phase = .idle) :
    advance s t = t.withTimeOf (advance s t) := by
  rw [advance, phaseStep_idle s t h]
  rfl

/-- What every edge moves on shows in STATUS (RX) and US_NOW only. -/
theorem readval_withTimeOf {r : Reg} (u t : State) (hst : r ≠ .status) (hus : r ≠ .usNow) :
    readval r (u.withTimeOf t) = readval r u := by
  cases r <;> try contradiction
  all_goals rfl

/-- An edge with a store to a RW-idle register, while no command runs. -/
theorem step_asks_store {s : State} {r : Reg} {off : Addr} (d : Word) (hoff : r.offset = some off)
    (hacc : r.access = .rwIdle) (hbusy : s.busy = false) :
    step (s.asks (.write off d)) = .next (advance s (store r d s)) := by
  have hr : regAt off = r := regAt_offset hoff
  have hcmd : regAt off ≠ .cmd := by rintro h; simp [← hr, h, Reg.access] at hacc
  rw [step_asks_write d hcmd, hr, hostWrite, hacc, hbusy]
  rfl

/-- Settles O48: the edge writes what the store wrote, and then only what every edge moves on. -/
theorem storeThenLoadReturnsTheFields : Obligations.StoreThenLoadReturnsTheFields := by
  intro s r off d hoff hacc hbusy hphase
  have hadv := advance_of_idle (store r d s) hphase
  have hread : ∀ r' : Reg, r' ≠ .status → r' ≠ .usNow →
      readval r' (advance s (store r d s)) = readval r' (store r d s) := by
    intro r' hst hus
    rw [hadv, readval_withTimeOf _ _ hst hus]
  refine ⟨_, step_asks_store d hoff hacc hbusy, ?_, fun r' hne hst hus => ?_, ?_⟩
  · rw [hread r (by rintro rfl; simp [Reg.access] at hacc) (by rintro rfl; simp [Reg.access] at hacc)]
    exact readval_store_same d s hacc
  · rw [hread r' hst hus, readval_store_of_ne d s hne hst]
  · rw [hadv]
    exact congrArg (State.withTimeOf · _) (store_frame r d s)
end Sys2Proof.Machine

/-! The eight commands (41_commands.md): at their edge, to their end, and the phases they run through. -/

namespace Sys2Proof.Machine

/-! ## Commands at their edge -/

/-- Settles O8: OP 0 decodes to NOP, whose meaning is the identity. -/
theorem nopChangesNothing : Obligations.NopChangesNothing :=
  ⟨fun _ h => decode_of_opField_zero h, fun _ => rfl⟩

theorem decode_of_opField_seven {d : Word} (h : opField d = 7) : decode d = .ok .clrcnt := by
  simp [decode, h]

theorem exec_clrcnt (s : State) : exec .clrcnt s = .next (whenIdle clearCounters s) := rfl

/-- Settles O12: the dispatch of R180 around the clearing of the counters. -/
theorem clrcntClearsTheCounters : Obligations.ClrcntClearsTheCounters := by
  refine ⟨fun d h => decode_of_opField_seven h, fun s hidle => ?_, fun s hbusy => ?_⟩
  · rw [exec_clrcnt, whenIdle_of_idle _ _ hidle]
    rfl
  · rw [exec_clrcnt, whenIdle_of_busy _ _ hbusy]
    rfl

theorem decode_encode (i : Instr) : decode (encode i) = .ok i := by
  obtain ⟨hop, hsensor, -⟩ := Laws.wordFields i
  cases i <;> simp [decode, hop, hsensor, Instr.op, Instr.sensor]

/-- The edge of a host that writes a command's word to CMD. -/
theorem step_of_writesCommand {s u : State} {i : Instr} {rest : List HostPins}
    (hw : s.writesCommand i rest) (he : exec i s = .next u) : step s = .next (advance s u) := by
  have hpins : s.hostPins = cmdWritePins (encode i) := by rw [State.hostPins, hw]
  have hbus : s.busOp = .write 0x004 (encode i) := by rw [State.busOp, hpins]; rfl
  have hreg : regAt 4#12 = .cmd := regAt_offset (r := .cmd) rfl
  have hcmd : s.command = some i := by simp [State.command, hbus, decode_encode, hreg]
  have hrst : s.hostPins.rst = false := by rw [hpins]; rfl
  rw [step, hrst, hcmd]
  simp [he, finishEdge]

/-! ## What a commit leaves

`commit` reads and writes the result registers only; so the facts about it are proved with the commit applied to
the state before the edge, whatever else the edge has changed. -/

theorem commitFrame_withResultsOf (fo : Option Frame) (u s : State) :
    commitFrame fo (u.withResultsOf s) = u.withResultsOf (commitFrame fo s) := by
  rcases fo with _ | _ | ⟨b, cnt⟩ <;> rfl

theorem raiseFailure_withResultsOf (op : Opcode) (c : FailCode) (fo : Option Frame) (u s : State) :
    raiseFailure op c fo (u.withResultsOf s) = u.withResultsOf (raiseFailure op c fo s) := by
  simp only [raiseFailure, commitFrame_withResultsOf]
  split <;> cases c <;> rfl

theorem commitSegs_withResultsOf (op : Opcode) (seg : List Byte) (u s : State) :
    commitSegs op seg (u.withResultsOf s) = u.withResultsOf (commitSegs op seg s) := by
  unfold commitSegs
  split <;> rfl

theorem commitLevel_withResultsOf (lv : LevelResult) (u s : State) :
    commitLevel lv (u.withResultsOf s) = u.withResultsOf (commitLevel lv s) := by
  cases lv <;> rfl

/-- A commit depends on the result registers only, and writes them only. -/
theorem commit_withResultsOf (op : Opcode) (e : EvalResult) (u s : State) :
    commit op e (u.withResultsOf s) = u.withResultsOf (commit op e s) := by
  cases e with
  | fail c fo => exact raiseFailure_withResultsOf op c fo u s
  | done fo seg lv =>
    simp only [commit, commitFrame_withResultsOf, commitSegs_withResultsOf, commitLevel_withResultsOf]

/-! ### The level pair fits its registers -/

/-- A level result whose pair fits the two 32-bit registers. -/
def LevelResult.Fits (lv : LevelResult) : Prop :=
  ∀ num den, lv = .pct num den → num < 2 ^ 32 ∧ den < 2 ^ 32

theorem fits_pct {num den : Nat} (hn : num < 2 ^ 32) (hd : den < 2 ^ 32) : (LevelResult.pct num den).Fits := by
  rintro _ _ ⟨⟩
  exact ⟨hn, hd⟩

theorem fits_levelFault : LevelResult.levelFault.Fits := by
  rintro _ _ ⟨⟩

theorem clampPct_fits {num den : Nat} (hn : num < 2 ^ 32) (hd : den < 2 ^ 32) : (clampPct num den).Fits := by
  unfold clampPct
  split
  · exact fits_pct (by decide) (by decide)
  · exact fits_pct hn hd

theorem calibratedLevel_fits {seg : List Byte} (h : seg.length ≤ 10) (ref : BitVec 16) :
    (calibratedLevel seg ref).Fits := by
  have hsum := sumBytes_le seg
  have href := ref.isLt
  unfold calibratedLevel
  split
  · exact fits_levelFault
  · exact fits_pct (by omega) (by omega)

theorem uncalibratedLevel_fits {n : Nat} {after : List Byte} (x : Byte) (hn : n ≤ 10)
    (ha : after.length ≤ 10) : (uncalibratedLevel n x after).Fits := by
  have hx := x.isLt
  have hsum : sumBytes after ≤ 2550 := by have := sumBytes_le after; omega
  have hnum : after.length * (x.toNat + sumBytes after) ≤ 10 * 2805 := Nat.mul_le_mul ha (by omega)
  have hden : sumBytes after * n ≤ 2550 * 10 := Nat.mul_le_mul hsum hn
  unfold uncalibratedLevel
  split_ifs
  · exact clampPct_fits (by omega) (by rw [Config.noCalAvg]; omega)
  · exact fits_levelFault
  · exact clampPct_fits (by rw [Nat.mul_assoc]; omega) (by omega)

/-- At most ten segments give a pair that fits (46_level_decoder.md R330). -/
theorem level_fits {seg : List Byte} (h : seg.length ≤ 10) (cal : Option (BitVec 16)) : (level seg cal).Fits := by
  rcases level_cases seg cal with ⟨-, hl⟩ | ⟨x, after, hdrop, ⟨ref, -, hl⟩ | ⟨-, hl⟩⟩ <;> rw [hl]
  · exact fits_pct (by decide) (by decide)
  · exact calibratedLevel_fits h ref
  · have hlen : (x :: after).length ≤ seg.length := by rw [← hdrop]; exact (List.dropWhile_sublist _).length_le
    exact uncalibratedLevel_fits x h (by rw [List.length_cons] at hlen; omega)

theorem levelFacts_commitLevel {lv : LevelResult} (h : lv.Fits) (t : State) :
    LevelFacts (commitLevel lv t) lv := by
  cases lv with
  | pct num den =>
    obtain ⟨hn, hd⟩ := h num den rfl
    exact ⟨rfl, Nat.mod_eq_of_lt hn, Nat.mod_eq_of_lt hd⟩
  | levelFault => exact ⟨rfl, rfl, rfl⟩

/-! ### The counters, the frame and the segments -/

theorem failCount_countFailure (c code : FailCode) (t : State) : (countFailure code t).failCount c =
    if c = code then min (t.failCount c + 1) (2 ^ 32 - 1) else t.failCount c := by
  cases c <;> cases code <;> simp [State.failCount, countFailure]

/-- A frame commit writes FRAME and FRAME_COUNT only. -/
theorem commitFrame_eq (fo : Option Frame) (t : State) : commitFrame fo t =
    { t with frame := (commitFrame fo t).frame, frameCount := (commitFrame fo t).frameCount } := by
  rcases fo with _ | _ | ⟨b, cnt⟩ <;> rfl

theorem commitSegs_of_commitsSegments {op : Opcode} (h : commitsSegments op = true) (seg : List Byte)
    (t : State) : commitSegs op seg t = writeSegments seg t := if_pos h

theorem ne_opLevel_of_commitsSegments {op : Opcode} (h : commitsSegments op = true) : op ≠ opLevel := by
  rintro rfl
  exact absurd h (by decide)

/-- Whatever the verdict, the frame committed is the one the evaluation hands on. -/
theorem commit_levelOf_frame {op : Opcode} (hop : commitsSegments op = true) (fo : Option Frame) (v : Verdict)
    (cal : Option (BitVec 16)) (s : State) :
    (commit op (levelOf fo v cal) s).frame = (commitFrame fo s).frame ∧
    (commit op (levelOf fo v cal) s).frameCount = (commitFrame fo s).frameCount := by
  cases v with
  | fail code =>
    simp only [levelOf, commit, raiseFailure, if_neg (ne_opLevel_of_commitsSegments hop)]
    cases code <;> exact ⟨rfl, rfl⟩
  | segs l =>
    simp only [levelOf, commit, commitSegs_of_commitsSegments hop]
    cases level l cal <;> exact ⟨rfl, rfl⟩

theorem frameFacts_commit {op : Opcode} (hop : commitsSegments op = true) (f : Frame) (v : Verdict)
    (cal : Option (BitVec 16)) (s : State) : FrameFacts s (commit op (levelOf (some f) v cal) s) f := by
  obtain ⟨hframe, hcount⟩ := commit_levelOf_frame hop (some f) v cal s
  cases f with
  | empty => exact ⟨hframe, hcount⟩
  | bytes b cnt => exact ⟨hframe, hcount⟩

/-- The commit of a failure (47_commit_and_counters.md R352, R353). -/
theorem commitFacts_fail {op : Opcode} (hop : commitsSegments op = true) (code : FailCode) (fo : Option Frame)
    (cal : Option (BitVec 16)) (s : State) : CommitFacts s (commit op (.fail code fo) s) (.fail code) cal := by
  simp only [commit, raiseFailure, if_neg (ne_opLevel_of_commitsSegments hop)]
  rw [commitFrame_eq]
  have hcount := fun c => failCount_countFailure c code s
  cases code <;> exact ⟨rfl, rfl, rfl, rfl, rfl, fun c => by rw [← hcount c]; cases c <;> rfl⟩

/-- The commit of segments and their level (47_commit_and_counters.md R350, R351, R354). -/
theorem commitFacts_segs {op : Opcode} (hop : commitsSegments op = true) {l : List Byte} (hl : l.length ≤ 10)
    (fo : Option Frame) (cal : Option (BitVec 16)) (s : State) :
    CommitFacts s (commit op (.done fo l (level l cal)) s) (.segs l) cal := by
  have hlen : (BitVec.ofNat 4 l.length).toNat = l.length := by rw [BitVec.toNat_ofNat]; omega
  have hseg : ∀ j : Fin 10, (overlay l s.seg)[j] = (l[j.val]?).getD s.seg[j] := fun j =>
    Vector.getElem_ofFn j.isLt
  simp only [commit, commitSegs_of_commitsSegments hop]
  rw [commitFrame_eq]
  refine ⟨fun c => ?_, ?_, fun j => ?_, levelFacts_commitLevel (level_fits hl cal) _⟩
  · cases level l cal <;> cases c <;> rfl
  · cases level l cal <;> exact hlen
  · cases level l cal <;> exact hseg j

theorem validate_length {f : Frame} {l : List Byte} (h : validate f = .segs l) : l.length ≤ 10 := by
  cases f with
  | empty => cases h
  | bytes b cnt =>
    rcases validate_cases b cnt with ⟨-, hv⟩ | ⟨-, -, hv⟩ | ⟨-, -, -, hv⟩ | ⟨-, -, -, hv⟩ <;>
      rw [hv] at h <;> cases h
    rw [quirk_length]
    exact rawSegments_length_le b

/-- What the commit of a validated frame leaves. -/
theorem commitFacts_commit {op : Opcode} (hop : commitsSegments op = true) (fo : Option Frame) (f : Frame)
    (cal : Option (BitVec 16)) (s : State) :
    CommitFacts s (commit op (levelOf fo (validate f) cal) s) (validate f) cal := by
  cases hv : validate f with
  | fail code => exact commitFacts_fail hop code fo cal s
  | segs l => exact commitFacts_segs hop (validate_length hv) fo cal s

/-! ## The evaluation commands to their end: the start edge and the EVAL edge -/

/-- While a command runs, an edge without a reset leaves DONE and IGN of some state `f` and then acts. -/
theorem step_of_busy {s : State} (hbusy : s.busy = true) (hrst : s.hostPins.rst = false) :
    ∃ f, step s = .next (advance s (s.withFlagsOf f)) := by
  obtain ⟨u, hu, hstep⟩ := step_next s hrst
  rw [port_busy s u hbusy hu] at hstep
  exact ⟨u, hstep⟩

/-- The EVAL edge: the commit of the evaluation, and the end of the command (41_commands.md R194, R196). -/
theorem advance_of_eval {s : State} {e : EvalResult} (f : State) (hphase : s.phase = .eval)
    (he : evalCommand s.curOp s = some e) : advance s (s.withFlagsOf f) =
      (((s.withFlagsOf f).withResultsOf (commit s.curOp e s)).endCommand).withTimeOf
        (advance s (s.withFlagsOf f)) := by
  have hcommit : commit s.curOp e (s.withFlagsOf f) =
      (s.withFlagsOf f).withResultsOf (commit s.curOp e s) :=
    commit_withResultsOf s.curOp e (s.withFlagsOf f) s
  conv_lhs => rw [advance, phaseStep_eval _ _ hphase, evalStep, he]
  simp only [hcommit]
  rfl

/-- The EVAL edge after the start edge, in terms of the state before the two. -/
theorem end_of_evaluation {s s' t : State} {op : Opcode} {n : Sensor} {e : EvalResult} (f : State)
    (hphase : s.phase = .idle) (hs' : s' = (beginEval (startCommand op n s)).withTimeOf s')
    (ht : t = (((s'.withFlagsOf f).withResultsOf (commit op e s')).endCommand).withTimeOf t) :
    s.withResultsOf t = s.withResultsOf (commit op e s) ∧
      t = ({ s.withResultsOf t with
        busy := false, done := true, ign := t.ign, curOp := op, curS := n }).withTimeOf t := by
  have hkeeps : s' = s'.withResultsOf s := by rw [hs']; rfl
  have hcommit : commit op e s' = s'.withResultsOf (commit op e s) := by
    conv_lhs => rw [hkeeps, commit_withResultsOf]
  have hresults : s.withResultsOf t = s.withResultsOf (commit op e s) := by rw [ht, hcommit]; rfl
  have hign : t.ign = f.ign := by rw [ht]; rfl
  refine ⟨hresults, ?_⟩
  rw [hresults, hign]
  simp only [withResultsOf_phase, hphase]
  conv_lhs => rw [ht, hcommit, hs']
  rfl

/-- An evaluation command takes two edges, the start edge and the EVAL edge (41_commands.md R186 to R188),
whatever the port carries at the second: it leaves what the commit of its evaluation writes. -/
theorem evaluation_runs {s : State} {i : Instr} {op : Opcode} {n : Sensor} {p : HostPins}
    {rest : List HostPins} {e : EvalResult} (hphase : s.phase = .idle)
    (hw : s.writesCommand i (p :: rest)) (hrst : p.rst = false)
    (hi : exec i s = .next (beginEval (startCommand op n s)))
    (he : evalCommand op { s with curS := n } = some e) :
    ∃ t, runFor 2 s = some t ∧ s.withResultsOf t = s.withResultsOf (commit op e s) ∧
      t = ({ s.withResultsOf t with
        busy := false, done := true, ign := t.ign, curOp := op, curS := n }).withTimeOf t := by
  have hstart := step_of_writesCommand hw hi
  have hs' := advance_of_idle (beginEval (startCommand op n s)) hphase
  have hpins : (advance s (beginEval (startCommand op n s))).hostPins = p := by
    rw [State.hostPins, advance_host, hw, List.tail_cons]
  generalize advance s (beginEval (startCommand op n s)) = s' at hstart hs' hpins
  have hop : s'.curOp = op := by rw [hs']; rfl
  have hev : evalCommand s'.curOp s' = some e := by rw [hop, ← he, hs']; rfl
  obtain ⟨f, hstep⟩ := step_of_busy (s := s') (by rw [hs']; rfl) (by rw [hpins, hrst])
  have hend := advance_of_eval f (by rw [hs']; rfl) hev
  rw [hop] at hend
  exact ⟨_, by rw [runFor_succ _ _ _ hstart, runFor_succ _ _ _ hstep, runFor_zero],
    end_of_evaluation f hphase hs' hend⟩

/-! ### The facts about a commit see the result registers only -/

theorem of_results {P : State → Prop} {s t c : State} (hP : ∀ u, P (s.withResultsOf u) ↔ P u)
    (h : s.withResultsOf t = s.withResultsOf c) (hc : P c) : P t := by
  rwa [← hP, h, hP]

theorem commitFacts_of_results {s t c : State} {v : Verdict} {cal : Option (BitVec 16)}
    (h : s.withResultsOf t = s.withResultsOf c) (hc : CommitFacts s c v cal) : CommitFacts s t v cal :=
  of_results (P := fun u => CommitFacts s u v cal) (fun _ => by cases v <;> rfl) h hc

theorem frameFacts_of_results {s t c : State} {f : Frame} (h : s.withResultsOf t = s.withResultsOf c)
    (hc : FrameFacts s c f) : FrameFacts s t f :=
  of_results (P := fun u => FrameFacts s u f) (fun _ => by cases f <;> rfl) h hc

theorem levelFacts_of_results {s t c : State} {lv : LevelResult} (h : s.withResultsOf t = s.withResultsOf c)
    (hc : LevelFacts c lv) : LevelFacts t lv :=
  of_results (P := fun u => LevelFacts u lv) (fun _ => by cases lv <;> rfl) h hc

/-! ### What each command starts and evaluates -/

theorem exec_decode {s : State} (n : Sensor) (h : s.busy = false) :
    exec (.decode n) s = .next (beginEval (startCommand opDecode n s)) :=
  congrArg Host.Outcome.next (whenIdle_of_idle _ s h)

theorem exec_validate {s : State} (n : Sensor) (h : s.busy = false) :
    exec (.validate n) s = .next (beginEval (startCommand opValidate n s)) :=
  congrArg Host.Outcome.next (whenIdle_of_idle _ s h)

theorem exec_level {s : State} (n : Sensor) (h : s.busy = false) :
    exec (.level n) s = .next (beginEval (startCommand opLevel n s)) :=
  congrArg Host.Outcome.next (whenIdle_of_idle _ s h)

theorem evalCommand_decodesFrame {op : Opcode} (h : decodesFrame op = true) (s : State) :
    evalCommand op s = some (levelOf (some (decodeDurations s.dur s.durCount))
      (validate (decodeDurations s.dur s.durCount)) (calLookup s.cal s.curS)) :=
  if_pos h

theorem evalCommand_validate (s : State) : evalCommand opValidate s =
    some (levelOf none (validate (.bytes s.frame s.frameCount)) (calLookup s.cal s.curS)) := rfl

theorem evalCommand_level (s : State) : evalCommand opLevel s =
    some (.done none s.segments (level s.segments (calLookup s.cal s.curS))) := rfl

/-- Settles O16: the two edges, and the facts about the commit of a decoded frame. -/
theorem decodeCommandRuns : Obligations.DecodeCommandRuns := by
  intro s n p rest hbusy hphase hw hrst
  obtain ⟨t, hrun, hresults, ht⟩ :=
    evaluation_runs hphase hw hrst (exec_decode n hbusy) (evalCommand_decodesFrame rfl _)
  exact ⟨t, hrun, ht, frameFacts_of_results hresults (frameFacts_commit rfl _ _ _ s),
    commitFacts_of_results hresults (commitFacts_commit rfl _ _ _ s)⟩

/-- Settles O15: the two edges, and the facts about a commit that hands on no frame. -/
theorem validateCommandRuns : Obligations.ValidateCommandRuns := by
  intro s n p rest hbusy hphase hw hrst
  obtain ⟨t, hrun, hresults, ht⟩ :=
    evaluation_runs hphase hw hrst (exec_validate n hbusy) (evalCommand_validate _)
  obtain ⟨hframe, hcount⟩ := commit_levelOf_frame (op := opValidate) rfl none
    (validate (.bytes s.frame s.frameCount)) (calLookup s.cal n) s
  exact ⟨t, hrun, ht, (congrArg State.frame hresults).trans hframe,
    (congrArg State.frameCount hresults).trans hcount,
    commitFacts_of_results hresults (commitFacts_commit rfl _ _ _ s)⟩

theorem segments_length_le (s : State) : s.segments.length ≤ 10 := by
  rw [State.segments, List.length_take, Vector.length_toList]
  exact Nat.min_le_right _ _

/-- The look-up of 46_level_decoder.md R321. -/
theorem calLookup_eq_some_iff (cal : Vector CalEntry 8) (n : Sensor) (ref : BitVec 16) :
    calLookup cal n = some ref ↔ ∃ i : Fin 8, n.toNat = i.val ∧ cal[i].valid = true ∧ cal[i].ref = ref := by
  unfold calLookup
  by_cases h : n.toNat < 8
  · rw [Vector.getElem?_eq_getElem h]
    constructor
    · intro he
      exact ⟨⟨n.toNat, h⟩, rfl, by simpa using he⟩
    · rintro ⟨i, hi, hvalid, href⟩
      obtain rfl : i = ⟨n.toNat, h⟩ := Fin.ext hi.symm
      simpa using ⟨hvalid, href⟩
  · rw [Vector.getElem?_eq_none (by omega)]
    simp only [reduceCtorEq, false_iff]
    rintro ⟨i, hi, -⟩
    omega

/-- LEVEL commits a level alone, and no segments (47_commit_and_counters.md R351). -/
theorem commit_level (seg : List Byte) (lv : LevelResult) (s : State) :
    commit opLevel (.done none seg lv) s = commitLevel lv s := rfl

/-- The commit of a level writes RESULT and the level pair only. -/
theorem withResultsOf_of_commitLevel {s t : State} {lv : LevelResult}
    (h : s.withResultsOf t = s.withResultsOf (commitLevel lv s)) : s.withResultsOf t =
      { s with result := t.result, levelNum := t.levelNum, levelDen := t.levelDen } := by
  have hfields : s.withResultsOf t = { s with
      result := (s.withResultsOf t).result
      levelNum := (s.withResultsOf t).levelNum, levelDen := (s.withResultsOf t).levelDen } := by
    rw [h]
    cases lv <;> rfl
  exact hfields

/-- Settles O14: the two edges, and the commit of a level alone. -/
theorem levelCommandRuns : Obligations.LevelCommandRuns := by
  refine ⟨calLookup_eq_some_iff, fun s n p rest hbusy hphase hw hrst => ?_⟩
  obtain ⟨t, hrun, hresults, ht⟩ :=
    evaluation_runs hphase hw hrst (exec_level n hbusy) (evalCommand_level _)
  rw [commit_level] at hresults
  rw [withResultsOf_of_commitLevel hresults] at ht
  exact ⟨t, hrun, ht, levelFacts_of_results hresults
    (levelFacts_commitLevel (level_fits (segments_length_le s) _) s)⟩

/-! ## The next-phase table (41_commands.md R191) -/

theorem portEffect_phase (s : State) : (portEffect s).phase = s.phase := by
  rcases portEffect_cases s with h | h | ⟨a, d, -, h⟩ <;> rw [h]
  · rfl
  · rcases hostWrite_cases (regAt a) d s with ⟨-, -, h'⟩ | ⟨-, -, h'⟩ | ⟨-, h'⟩ | ⟨-, -, h'⟩ <;> rw [h']
    · rfl
    · rw [store_frame]; rfl
    · rfl

/-- The table's IDLE row: the command on the port decides. -/
theorem port_phase_of_idle {s u : State} (hphase : s.phase = .idle) (hbusy : s.busy = false)
    (h : PortLeaves s u) : u.phase = s.tablePhase := by
  rcases h with ⟨i, hcmd, he⟩ | ⟨hcmd, rfl⟩
  · rcases exec_cases i s u he with ⟨rfl, rfl⟩ | ⟨-, hb, -⟩ | ⟨-, hstart⟩
    · simp [State.tablePhase, hphase, hcmd]
    · simp [hbusy] at hb
    · rcases hstart with ⟨n, rfl, rfl⟩ | ⟨n, rfl, rfl⟩ | ⟨n, rfl, rfl⟩ | ⟨n, rfl, rfl⟩ | ⟨n, rfl, rfl⟩ |
        ⟨n, rfl, rfl⟩ | ⟨rfl, rfl⟩ <;> simp [State.tablePhase, hphase, hcmd]
  · simp [portEffect_phase, State.tablePhase, hphase, hcmd]

/-! The rows of the table, in the model's names. -/

theorem tablePhase_selOff {s : State} (h : s.phase = .selOff) : s.tablePhase =
    if s.selOffUs.toNat ≤ (elapsed s.us s.tStart).toNat then .selOn else .selOff := by
  simp only [State.tablePhase, h]
  rfl

theorem tablePhase_selOn {s : State} (h : s.phase = .selOn) : s.tablePhase =
    if s.selOnUs.toNat ≤ (elapsed s.us s.tStart).toNat then
      if 1 < s.selRemain.toNat then .selOff else if s.curOp = opRead then .capHigh else .idle
    else .selOn := by
  simp only [State.tablePhase, h]
  rfl

theorem tablePhase_capHigh {s : State} (h : s.phase = .capHigh) : s.tablePhase =
    if s.sync2 = false then .capLow else if timedOut s s.tStart = true then .eval else .capHigh := by
  simp only [State.tablePhase, h, timedOut_iff, elapsed]

theorem tablePhase_capLow {s : State} (h : s.phase = .capLow) : s.tablePhase =
    if s.sync2 = true then (if s.durCount.toNat + 1 < 96 then .capHigh else .eval)
    else if timedOut s s.tFall = true then .eval else .capLow := by
  simp only [State.tablePhase, h, timedOut_iff, elapsed]

theorem tablePhase_eval {s : State} (h : s.phase = .eval) : s.tablePhase = .idle := by
  simp only [State.tablePhase, h]

theorem selOffStep_phase {s t : State} (hphase : s.phase = .selOff) (ht : t.phase = .selOff) :
    (selOffStep s t).phase = s.tablePhase := by
  rw [tablePhase_selOff hphase]
  rcases selOffStep_cases s t with ⟨hel, h⟩ | ⟨hel, h⟩ <;> rw [h]
  · rw [if_pos hel, turnOn_phase]
  · rw [if_neg (Nat.not_le.mpr hel), ht]

/-- The pulse that ends is the last or not, and the last is a READ's or a SELECT's. -/
theorem selOnStep_phase {s t : State} (hphase : s.phase = .selOn) (ht : t.phase = .selOn)
    (hop : s.curOp = opRead ∨ s.curOp = opSelect) : (selOnStep s t).phase = s.tablePhase := by
  rw [tablePhase_selOn hphase]
  rcases selOnStep_cases s t with ⟨hel, hrem, h⟩ | ⟨hel, hrem, h⟩ | ⟨hel, h⟩ <;> rw [h]
  · rw [if_pos hel, if_pos hrem, nextPulse_phase]
  · rw [if_pos hel, if_neg (Nat.not_lt.mpr hrem)]
    rcases selectDone_cases s t with ⟨hread, h'⟩ | ⟨hsel, h'⟩ | ⟨hread, hsel, -⟩
    · rw [h', if_pos hread, beginCapture_phase]
    · rw [h', if_neg (by rw [hsel]; decide), endCommand_phase]
    · exact absurd hop (not_or.mpr ⟨hread, hsel⟩)
  · rw [if_neg (Nat.not_le.mpr hel), ht]

theorem capHighStep_phase {s t : State} (hphase : s.phase = .capHigh) (ht : t.phase = .capHigh) :
    (capHighStep s t).phase = s.tablePhase := by
  rw [tablePhase_capHigh hphase]
  rcases capHighStep_cases s t with ⟨hlow, h⟩ | ⟨hhigh, hto, h⟩ | ⟨hhigh, hto, h⟩
  · simp [h, hlow]
  · simp [h, hhigh, hto]
  · simp [h, ht, hhigh, hto]

/-- The 96th duration ends the capture. -/
theorem capLowStep_phase {s t : State} (hphase : s.phase = .capLow) (ht : t.phase = .capLow)
    (hcount : s.durCount.toNat ≤ 95) : (capLowStep s t).phase = s.tablePhase := by
  rw [tablePhase_capLow hphase]
  rcases capLowStep_cases s t with ⟨hhigh, hc, h⟩ | ⟨hhigh, hc, h⟩ | ⟨hlow, hto, h⟩ | ⟨hlow, hto, h⟩
  · simp [h, hhigh, hc]
  · simp [h, hhigh, show s.durCount.toNat + 1 < 96 by omega]
  · simp [h, hlow, hto]
  · simp [h, ht, hlow, hto]

/-- The table's rows but IDLE: the unit's step decides, whatever the port does to the flags. -/
theorem phaseStep_phase {s t : State} (hsel : s.selectSound) (hcap : s.captureSound)
    (ht : t.phase = s.phase) (hrun : s.phase ≠ .idle) : (phaseStep s t).phase = s.tablePhase := by
  cases hphase : s.phase with
  | idle => exact absurd hphase hrun
  | selOff =>
    rw [phaseStep_selOff _ _ hphase]
    exact selOffStep_phase hphase (ht.trans hphase)
  | selOn =>
    rw [phaseStep_selOn _ _ hphase]
    exact selOnStep_phase hphase (ht.trans hphase) (hsel (.inr hphase)).2
  | capHigh =>
    rw [phaseStep_capHigh _ _ hphase]
    exact capHighStep_phase hphase (ht.trans hphase)
  | capLow =>
    rw [phaseStep_capLow _ _ hphase]
    exact capLowStep_phase hphase (ht.trans hphase) (hcap (.inr hphase)).1
  | eval =>
    rw [phaseStep_eval _ _ hphase, tablePhase_eval hphase]
    exact (evalStep_ends s t).1

theorem step_of_reset {s : State} (h : s.hostPins.rst = true) : step s = .next (resetEdge s) := if_pos h

theorem busy_false_of_idle {s : State} (h : s.busyMatchesPhase) (hphase : s.phase = .idle) : s.busy = false :=
  Bool.eq_false_iff.mpr fun hb => h.mp hb hphase

/-- Settles O18: the port decides the IDLE row, the units every other. -/
theorem phaseFollowsTheTable : Obligations.PhaseFollowsTheTable := by
  rintro s ⟨hbusy, -, -, -, -, hsel, hcap, -⟩
  cases hrst : s.hostPins.rst with
  | true => exact ⟨_, step_of_reset hrst, rfl⟩
  | false =>
    by_cases hphase : s.phase = .idle
    · obtain ⟨u, hu, hstep⟩ := step_next s hrst
      refine ⟨_, hstep, ?_⟩
      rw [advance_phase, phaseStep_idle _ _ hphase]
      exact port_phase_of_idle hphase (busy_false_of_idle hbusy hphase) hu
    · obtain ⟨f, hstep⟩ := step_of_busy (hbusy.mpr hphase) hrst
      refine ⟨_, hstep, ?_⟩
      rw [advance_phase]
      exact phaseStep_phase hsel hcap rfl hphase

/-! ## A capture forgets the data of before (41_commands.md R197)

Two states that differ in the data registers only stay so: no unit but the capture and the evaluation reads
them, and these read the DUR elements below DUR_COUNT, which the capture itself has written. -/

/-- The two states differ in DUR, DUR_COUNT, FRAME, FRAME_COUNT, SEG and SEG_COUNT only. -/
def SameButData (s s' : State) : Prop := s' = s.withDataOf s'

theorem sameButData_withDataOf (s d : State) : SameButData s (s.withDataOf d) := rfl

theorem sameButData_ite {p p' : Prop} [Decidable p] [Decidable p'] {a a' b b' : State} (hp : p' ↔ p)
    (ha : SameButData a a') (hb : SameButData b b') :
    SameButData (if p then a else b) (if p' then a' else b') := by
  by_cases h : p
  · rwa [if_pos h, if_pos (hp.mpr h)]
  · rwa [if_neg h, if_neg (mt hp.mp h)]

theorem SameButData.exists_eq {s s' : State} (h : SameButData s s') : ∃ d, s' = s.withDataOf d := ⟨s', h⟩

theorem SameButData.phase_eq {s s' : State} (h : SameButData s s') : s'.phase = s.phase := by
  rw [h]
  rfl

/-- The DUR elements that a capture has written are the same, and so is their number. -/
def SameDurations (s s' : State) : Prop :=
  s'.durCount = s.durCount ∧ ∀ k, k < s.durCount.toNat → s'.dur[k]? = s.dur[k]?

/-- A capture has begun, and its evaluation has not ended. -/
def Phase.Capturing (p : Phase) : Prop := p = .capHigh ∨ p = .capLow ∨ p = .eval

/-- Two READs or CAPTUREs in step with each other: once the capture has begun, the durations agree too. -/
structure CaptureCoupled (s s' : State) : Prop where
  sameButData : SameButData s s'
  captures : s.curOp = opRead ∨ s.curOp = opCapture
  durations : s.phase.Capturing → SameDurations s s'

/-! ### The port -/

theorem store_sameButData (r : Reg) (w : Word) (s d : State) :
    SameButData (store r w s) (store r w (s.withDataOf d)) := by
  cases r <;> rfl

theorem hostWrite_sameButData (r : Reg) (w : Word) (s d : State) :
    SameButData (hostWrite r w s) (hostWrite r w (s.withDataOf d)) := by
  unfold hostWrite
  cases r.access with
  | rwIdle => exact sameButData_ite Iff.rfl rfl (store_sameButData r w s d)
  | ro | w1c | wo | unmapped => rfl

theorem portEffect_sameButData (s d : State) : SameButData (portEffect s) (portEffect (s.withDataOf d)) := by
  have hbus : (s.withDataOf d).busOp = s.busOp := rfl
  unfold portEffect
  rw [hbus]
  cases s.busOp with
  | none | read a => rfl
  | write a w =>
    by_cases ha : regAt a = .cmd
    · simp only [if_pos ha]
      cases decode w <;> rfl
    · simp only [if_neg ha]
      exact hostWrite_sameButData (regAt a) w s d

theorem whenIdle_sameButData {act : State → State} {s d : State}
    (h : SameButData (act s) (act (s.withDataOf d))) :
    SameButData (whenIdle act s) (whenIdle act (s.withDataOf d)) :=
  sameButData_ite Iff.rfl rfl h

theorem exec_sameButData {i : Instr} {s d u u' : State} (h : exec i s = .next u)
    (h' : exec i (s.withDataOf d) = .next u') : SameButData u u' := by
  cases i <;> cases h <;> cases h'
  case nop => rfl
  all_goals exact whenIdle_sameButData rfl

/-- A port operation reads none of the data registers. -/
theorem port_sameButData {s s' u u' : State} (h : SameButData s s') (hu : PortLeaves s u)
    (hu' : PortLeaves s' u') : SameButData u u' := by
  obtain ⟨d, rfl⟩ := h.exists_eq
  have hcommand : (s.withDataOf d).command = s.command := rfl
  simp only [PortLeaves, hcommand] at hu'
  rcases hu with ⟨i, hi, he⟩ | ⟨hi, rfl⟩ <;> rcases hu' with ⟨i', hi', he'⟩ | ⟨hi', rfl⟩ <;> rw [hi] at hi'
  · cases hi'
    exact exec_sameButData he he'
  · cases hi'
  · cases hi'
  · exact portEffect_sameButData s d

/-! ### The units -/

theorem selOffStep_sameButData (s t d : State) :
    SameButData (selOffStep s t) (selOffStep (s.withDataOf d) (t.withDataOf d)) :=
  sameButData_ite Iff.rfl rfl rfl

theorem selectDone_sameButData (s t d : State) :
    SameButData (selectDone s t) (selectDone (s.withDataOf d) (t.withDataOf d)) :=
  sameButData_ite Iff.rfl rfl (sameButData_ite Iff.rfl rfl rfl)

theorem selOnStep_sameButData (s t d : State) :
    SameButData (selOnStep s t) (selOnStep (s.withDataOf d) (t.withDataOf d)) :=
  sameButData_ite Iff.rfl (sameButData_ite Iff.rfl rfl (selectDone_sameButData s t d)) rfl

theorem capHighStep_sameButData (s t d : State) :
    SameButData (capHighStep s t) (capHighStep (s.withDataOf d) (t.withDataOf d)) :=
  sameButData_ite Iff.rfl rfl (sameButData_ite Iff.rfl rfl rfl)

/-- DUR_COUNT says whether a capture is complete, so it must agree. -/
theorem capLowStep_sameButData {s d : State} (t : State) (hcount : d.durCount = s.durCount) :
    SameButData (capLowStep s t) (capLowStep (s.withDataOf d) (t.withDataOf d)) :=
  sameButData_ite Iff.rfl (sameButData_ite (by rw [withDataOf_durCount, hcount]) rfl rfl)
    (sameButData_ite Iff.rfl rfl rfl)

theorem commitFrame_sameButData (fo : Option Frame) {t t' : State} (h : SameButData t t') :
    SameButData (commitFrame fo t) (commitFrame fo t') := by
  obtain ⟨d, rfl⟩ := h.exists_eq
  rcases fo with _ | _ | ⟨b, cnt⟩ <;> rfl

theorem commitSegs_sameButData (op : Opcode) (seg : List Byte) {t t' : State} (h : SameButData t t') :
    SameButData (commitSegs op seg t) (commitSegs op seg t') := by
  obtain ⟨d, rfl⟩ := h.exists_eq
  unfold commitSegs
  split <;> rfl

theorem commitLevel_sameButData (lv : LevelResult) {t t' : State} (h : SameButData t t') :
    SameButData (commitLevel lv t) (commitLevel lv t') := by
  obtain ⟨d, rfl⟩ := h.exists_eq
  cases lv <;> rfl

theorem raiseFailure_sameButData (op : Opcode) (c : FailCode) (fo : Option Frame) {t t' : State}
    (h : SameButData t t') : SameButData (raiseFailure op c fo t) (raiseFailure op c fo t') := by
  obtain ⟨d, hd⟩ := (commitFrame_sameButData fo h).exists_eq
  simp only [raiseFailure, hd]
  split <;> cases c <;> rfl

/-- One evaluation, committed to two states that differ in the data registers only. -/
theorem commit_sameButData (op : Opcode) (e : EvalResult) {t t' : State} (h : SameButData t t') :
    SameButData (commit op e t) (commit op e t') := by
  cases e with
  | fail c fo => exact raiseFailure_sameButData op c fo h
  | done fo seg lv =>
    exact commitLevel_sameButData lv (commitSegs_sameButData op seg (commitFrame_sameButData fo h))

theorem decodeDurations_congr {s s' : State} (h : SameDurations s s') :
    decodeDurations s'.dur s'.durCount = decodeDurations s.dur s.durCount := by
  obtain ⟨hcount, hdur⟩ := h
  rw [hcount]
  rcases decodeDurations_cases s.dur s.durCount with ⟨hfull, -⟩ | ⟨hpart, he⟩
  · have heq : s'.dur = s.dur := Vector.ext fun k hk => by
      have := hdur k (by omega)
      simpa [hk] using this
    rw [heq]
  · rcases decodeDurations_cases s'.dur s.durCount with ⟨hfull, -⟩ | ⟨-, he'⟩
    · exact absurd hfull hpart
    · rw [he, he']

theorem evalStep_sameButData {s d : State} (t : State) (hop : decodesFrame s.curOp = true)
    (hdur : SameDurations s d) :
    SameButData (evalStep s t) (evalStep (s.withDataOf d) (t.withDataOf d)) := by
  have hdecode : decodeDurations d.dur d.durCount = decodeDurations s.dur s.durCount :=
    decodeDurations_congr hdur
  have heval : evalCommand s.curOp (s.withDataOf d) = evalCommand s.curOp s := by
    simp only [evalCommand_decodesFrame hop, withDataOf_dur, withDataOf_durCount, withDataOf_cal,
      withDataOf_curS, hdecode]
  simp only [evalStep, withDataOf_curOp, heval, evalCommand_decodesFrame hop]
  obtain ⟨c, hc⟩ := (commit_sameButData s.curOp _ (sameButData_withDataOf t d)).exists_eq
  rw [hc]
  rfl

/-- The units of one edge read the data registers only where a capture has written them. -/
theorem phaseStep_sameButData {s d : State} (t : State) (h : CaptureCoupled s (s.withDataOf d)) :
    SameButData (phaseStep s t) (phaseStep (s.withDataOf d) (t.withDataOf d)) := by
  unfold phaseStep
  rw [withDataOf_phase]
  cases hphase : s.phase with
  | idle => rfl
  | selOff => exact selOffStep_sameButData s t d
  | selOn => exact selOnStep_sameButData s t d
  | capHigh => exact capHighStep_sameButData s t d
  | capLow => exact capLowStep_sameButData t (h.durations (by simp [Phase.Capturing, hphase])).1
  | eval =>
    refine evalStep_sameButData t ?_ (h.durations (by simp [Phase.Capturing, hphase]))
    rcases h.captures with hop | hop <;> rw [hop] <;> rfl

/-! ### The durations of a capture -/

/-- The step of CAP_LOW writes the same element and counts it, so one more duration agrees. -/
theorem storeDuration_sameDurations {s t d : State} (hcount : t.durCount = s.durCount)
    (h : SameDurations t (t.withDataOf d)) :
    SameDurations (storeDuration s t) (storeDuration (s.withDataOf d) (t.withDataOf d)) := by
  obtain ⟨hc, hdur⟩ := h
  rw [withDataOf_durCount, hcount] at hc
  refine ⟨by simp [hc], fun k hk => ?_⟩
  rw [storeDuration_durCount] at hk
  have hle : k ≤ s.durCount.toNat := by bv_omega
  simp only [storeDuration_dur, withDataOf_durCount, withDataOf_dur, withDataOf_us, withDataOf_tFall, hc,
    Vector.getElem?_setIfInBounds]
  by_cases heq : s.durCount.toNat = k
  · simp [heq]
  · simpa [heq] using hdur k (by rw [hcount]; omega)


/-- The two states hold the same DUR and DUR_COUNT. -/
def SameDurRegs (x a : State) : Prop := x.dur = a.dur ∧ x.durCount = a.durCount

theorem SameDurations.of_regs {x x' a a' : State} (h : SameDurations a a') (hx : SameDurRegs x a)
    (hx' : SameDurRegs x' a') : SameDurations x x' := by
  obtain ⟨hdur, hcount⟩ := hx
  obtain ⟨hdur', hcount'⟩ := hx'
  rw [SameDurations, hdur, hcount, hdur', hcount']
  exact h

theorem sameDurations_of_zero {x x' : State} (hx : x.durCount = 0) (hx' : x'.durCount = 0) :
    SameDurations x x' :=
  ⟨hx'.trans hx.symm, fun k hk => by simp [hx] at hk⟩

theorem selOffStep_not_capturing {s t : State} (ht : t.phase = .selOff) : ¬ (selOffStep s t).phase.Capturing := by
  rcases selOffStep_cases s t with ⟨-, h⟩ | ⟨-, h⟩ <;> simp [Phase.Capturing, h, ht]

/-- An address phase goes on to a capture by beginning it. -/
theorem durCount_of_selOnStep {s t : State} (ht : t.phase = .selOn) (h : (selOnStep s t).phase.Capturing) :
    (selOnStep s t).durCount = 0 := by
  rcases selOnStep_cases s t with ⟨-, -, hs⟩ | ⟨-, -, hs⟩ | ⟨-, hs⟩ <;> rw [hs] at h ⊢
  · simp [Phase.Capturing] at h
  · rcases selectDone_cases s t with ⟨-, hd⟩ | ⟨-, hd⟩ | ⟨-, -, hd⟩ <;> rw [hd] at h ⊢
    · rfl
    · simp [Phase.Capturing] at h
    · simp [Phase.Capturing, ht] at h
  · simp [Phase.Capturing, ht] at h

theorem capHighStep_durRegs (s t : State) : SameDurRegs (capHighStep s t) t := by
  rcases capHighStep_cases s t with ⟨-, h⟩ | ⟨-, -, h⟩ | ⟨-, -, h⟩ <;> rw [h] <;> exact ⟨rfl, rfl⟩

theorem capLowStep_durRegs_of_high {s : State} (t : State) (hs : s.sync2 = true) :
    SameDurRegs (capLowStep s t) (storeDuration s t) := by
  unfold capLowStep
  rw [if_pos hs]
  split <;> exact ⟨rfl, rfl⟩

theorem capLowStep_durRegs_of_low {s : State} (t : State) (hs : s.sync2 = false) :
    SameDurRegs (capLowStep s t) t := by
  unfold capLowStep
  rw [if_neg (by simp [hs])]
  split <;> exact ⟨rfl, rfl⟩

/-- Where the units leave a capture running, its durations agree. -/
theorem phaseStep_durations {s d : State} (f : State) (h : CaptureCoupled s (s.withDataOf d))
    (hcap : (phaseStep s (s.withFlagsOf f)).phase.Capturing) :
    SameDurations (phaseStep s (s.withFlagsOf f))
      (phaseStep (s.withDataOf d) ((s.withFlagsOf f).withDataOf d)) := by
  have hcap' : (phaseStep (s.withDataOf d) ((s.withFlagsOf f).withDataOf d)).phase.Capturing := by
    rwa [(phaseStep_sameButData (s.withFlagsOf f) h).phase_eq]
  unfold phaseStep at hcap hcap' ⊢
  rw [withDataOf_phase] at hcap' ⊢
  cases hphase : s.phase with simp only [hphase] at hcap hcap' ⊢
  | idle => simp [Phase.Capturing, hphase] at hcap
  | selOff => exact absurd hcap (selOffStep_not_capturing hphase)
  | selOn => exact sameDurations_of_zero (durCount_of_selOnStep hphase hcap) (durCount_of_selOnStep hphase hcap')
  | capHigh =>
    exact (h.durations (by simp [Phase.Capturing, hphase])).of_regs (capHighStep_durRegs s (s.withFlagsOf f))
      (capHighStep_durRegs (s.withDataOf d) ((s.withFlagsOf f).withDataOf d))
  | capLow =>
    have hdur : SameDurations (s.withFlagsOf f) ((s.withFlagsOf f).withDataOf d) :=
      h.durations (by simp [Phase.Capturing, hphase])
    cases hs : s.sync2 with
    | true =>
      exact (storeDuration_sameDurations rfl hdur).of_regs (capLowStep_durRegs_of_high _ hs)
        (capLowStep_durRegs_of_high (s := s.withDataOf d) _ hs)
    | false =>
      exact hdur.of_regs (capLowStep_durRegs_of_low _ hs) (capLowStep_durRegs_of_low (s := s.withDataOf d) _ hs)
  | eval => simp [Phase.Capturing, (evalStep_ends s (s.withFlagsOf f)).1] at hcap

/-! ### The edges -/

/-- The rest of an edge moves the same on in both states. -/
theorem advance_sameButData {s s' u u' : State} (hs : SameButData s s')
    (h : SameButData (phaseStep s u) (phaseStep s' u')) : SameButData (advance s u) (advance s' u') := by
  obtain ⟨d, rfl⟩ := hs.exists_eq
  obtain ⟨e, he⟩ := h.exists_eq
  rw [advance, advance, he]
  rfl

theorem advance_coupled {s d : State} (f : State) (h : CaptureCoupled s (s.withDataOf d)) :
    CaptureCoupled (advance s (s.withFlagsOf f))
      (advance (s.withDataOf d) ((s.withFlagsOf f).withDataOf d)) where
  sameButData := advance_sameButData (sameButData_withDataOf s d) (phaseStep_sameButData _ h)
  captures := by
    rw [advance_curOp, phaseStep_curOp]
    exact h.captures
  durations hcap := phaseStep_durations f h hcap

/-- A reset edge leaves nothing of the data registers before it. -/
theorem resetEdge_sameButData {s s' : State} (h : SameButData s s') : SameButData (resetEdge s) (resetEdge s') := by
  obtain ⟨d, rfl⟩ := h.exists_eq
  rfl

/-- While a command runs, the port leaves the same flags in both states. -/
theorem port_busy_withDataOf {s d u u' : State} (hbusy : s.busy = true) (hu : PortLeaves s u)
    (hu' : PortLeaves (s.withDataOf d) u') : u' = (s.withFlagsOf u).withDataOf d := by
  have hport : u' = u.withDataOf u' := port_sameButData (sameButData_withDataOf s d) hu hu'
  have hflags : u = s.withFlagsOf u := port_busy s u hbusy hu
  have hflags' : u' = (s.withDataOf d).withFlagsOf u' := port_busy _ u' hbusy hu'
  calc
    u' = u.withDataOf u' := hport
    _ = u.withDataOf ((s.withDataOf d).withFlagsOf u') := by rw [← hflags']
    _ = (s.withFlagsOf u).withDataOf d := by rw [← hflags]; rfl

/-- An edge keeps two captures in step until the command ends or a reset ends it. -/
theorem CaptureCoupled.step {s s' t t' : State} (h : CaptureCoupled s s') (hbusy : s.busy = true)
    (hst : step s = .next t) (hst' : Machine.step s' = .next t') :
    SameButData t t' ∧ (t.busy = true → CaptureCoupled t t') := by
  obtain ⟨d, rfl⟩ := h.sameButData.exists_eq
  have hpins : (s.withDataOf d).hostPins = s.hostPins := rfl
  rcases step_cases s t hst with ⟨hr, rfl⟩ | ⟨hr, u, hu, rfl⟩ <;>
    rcases step_cases _ t' hst' with ⟨hr', rfl⟩ | ⟨hr', u', hu', rfl⟩ <;> rw [hpins, hr] at hr'
  · exact ⟨resetEdge_sameButData (sameButData_withDataOf s d), fun hb => by simp at hb⟩
  · cases hr'
  · cases hr'
  · have hc := advance_coupled u h
    rw [← port_busy s u hbusy hu] at hc
    rw [port_busy_withDataOf hbusy hu hu', ← port_busy s u hbusy hu]
    exact ⟨hc.sameButData, fun _ => hc⟩

theorem runFor_succ_inv {n : Nat} {s t : State} (h : runFor (n + 1) s = some t) :
    ∃ u, step s = .next u ∧ runFor n u = some t := by
  cases hs : step s with
  | next u => exact ⟨u, rfl, by rwa [runFor_succ _ _ _ hs] at h⟩
  | fault r => cases r
  | refused r => simp [runFor, hs] at h

/-- Two captures in step differ in the data registers only, up to the edge that ends them. -/
theorem CaptureCoupled.runFor {n : Nat} {s s' t t' : State} (hdata : SameButData s s')
    (h : s.busy = true → CaptureCoupled s s')
    (hbusy : ∀ m u, m < n → Machine.runFor m s = some u → u.busy = true)
    (ht : Machine.runFor n s = some t) (ht' : Machine.runFor n s' = some t') : SameButData t t' := by
  induction n generalizing s s' with
  | zero =>
    cases ht
    cases ht'
    exact hdata
  | succ n ih =>
    obtain ⟨u, hu, ht⟩ := runFor_succ_inv ht
    obtain ⟨u', hu', ht'⟩ := runFor_succ_inv ht'
    have hs : s.busy = true := hbusy 0 s (Nat.succ_pos n) rfl
    obtain ⟨hdata', h'⟩ := (h hs).step hs hu hu'
    exact ih hdata' h' (fun m v hm hv => hbusy (m + 1) v (by omega) (by rw [runFor_succ _ _ _ hu, hv])) ht ht'

theorem exec_read {s : State} (n : Sensor) (h : s.busy = false) :
    exec (.read n) s = .next (beginSelect n s (startCommand opRead n s)) :=
  congrArg Host.Outcome.next (whenIdle_of_idle _ s h)

theorem exec_capture {s : State} (n : Sensor) (h : s.busy = false) :
    exec (.capture n) s = .next (beginCapture s (startCommand opCapture n s)) :=
  congrArg Host.Outcome.next (whenIdle_of_idle _ s h)

/-- What the start edge of a READ or CAPTURE leaves: the capture has not begun, or has written nothing. -/
theorem starts_of_exec {s u : State} {i : Instr} (hi : ∃ n, i = .read n ∨ i = .capture n)
    (hbusy : s.busy = false) (hu : exec i s = .next u) :
    (u.curOp = opRead ∨ u.curOp = opCapture) ∧ (u.phase.Capturing → u.durCount = 0) := by
  obtain ⟨n, rfl | rfl⟩ := hi
  · rw [exec_read n hbusy] at hu
    cases hu
    exact ⟨.inl rfl, fun h => by simp [Phase.Capturing] at h⟩
  · rw [exec_capture n hbusy] at hu
    cases hu
    exact ⟨.inr rfl, fun _ => rfl⟩

/-- The start edge of a READ or CAPTURE puts two idle states in step. -/
theorem coupled_of_start {s d u u' : State} {i : Instr} (hi : ∃ n, i = .read n ∨ i = .capture n)
    (hphase : s.phase = .idle) (hbusy : s.busy = false) (hu : exec i s = .next u)
    (hu' : exec i (s.withDataOf d) = .next u') : CaptureCoupled (advance s u) (advance (s.withDataOf d) u') := by
  have hsame : SameButData u u' := exec_sameButData hu hu'
  have hunits : phaseStep s u = u := phaseStep_idle s u hphase
  have hunits' : phaseStep (s.withDataOf d) u' = u' := phaseStep_idle _ u' hphase
  obtain ⟨hop, hcount⟩ := starts_of_exec hi hbusy hu
  obtain ⟨-, hcount'⟩ := starts_of_exec (s := s.withDataOf d) hi hbusy hu'
  refine ⟨advance_sameButData (sameButData_withDataOf s d) (by rwa [hunits, hunits']), ?_, fun hcap => ?_⟩
  · rwa [advance_curOp, hunits]
  · rw [advance_phase, hunits] at hcap
    refine sameDurations_of_zero ?_ ?_
    · rw [advance_durCount, hunits, hcount hcap]
    · rw [advance_durCount, hunits', hcount' (by rwa [hsame.phase_eq])]

/-- Settles O60: the two captures are in step from their start edge on. -/
theorem captureOutcomeIgnoresOldData : Obligations.CaptureOutcomeIgnoresOldData := by
  intro n s s' t t' i rest hi hinv hbusy hdata hw hn hrun ht ht'
  obtain ⟨k, rfl⟩ := Nat.exists_eq_add_of_le' hn
  obtain ⟨d, rfl⟩ := SameButData.exists_eq hdata
  have hphase : s.phase = .idle := by
    by_contra hne
    rw [hinv.1.mpr hne] at hbusy
    cases hbusy
  obtain ⟨u, hu⟩ := exec_next i s
  obtain ⟨u', hu'⟩ := exec_next i (s.withDataOf d)
  have hst := step_of_writesCommand hw hu
  have hst' := step_of_writesCommand (s := s.withDataOf d) hw hu'
  have hc := coupled_of_start hi hphase hbusy hu hu'
  rw [runFor_succ _ _ _ hst] at ht
  rw [runFor_succ _ _ _ hst'] at ht'
  exact CaptureCoupled.runFor hc.sameButData (fun _ => hc)
    (fun m v hm hv => hrun (m + 1) v (by omega) (by omega) (by rw [runFor_succ _ _ _ hst, hv])) ht ht'

end Sys2Proof.Machine

/-! The Bus Addressor (42_bus_addressor.md): the start of READ and SELECT, and its two steps edge by edge. -/

namespace Sys2Proof.Machine

/-! ## The start of an addressing command (42_bus_addressor.md R221) -/

theorem exec_select {s : State} (n : Sensor) (h : s.busy = false) :
    exec (.select n) s = .next (beginSelect n s (startCommand opSelect n s)) :=
  congrArg Host.Outcome.next (whenIdle_of_idle _ s h)

/-- Settles O9: an idle block starts the command and begins its first off phase. -/
theorem addressingCommandsStart : Obligations.AddressingCommandsStart :=
  fun _ n hidle => ⟨exec_read n hidle, exec_select n hidle⟩

/-! ## The frame of an edge while a command runs -/

/-- What the units leave of an edge, DONE and IGN apart, is what the edge leaves, but for what every edge moves
on. -/
theorem advance_frame_of_phaseStep {s t v : State} (h : phaseStep s t = v.withFlagsOf (phaseStep s t)) :
    advance s t = (v.withFlagsOf (advance s t)).withTimeOf (advance s t) := by
  conv_lhs => rw [advance, h]
  rfl

/-- The units clear BUSY only by `end()`, which sets DONE (41_commands.md R196). -/
theorem done_of_advance_ends {s t : State} (hbusy : t.busy = true) (hend : (advance s t).busy = false) :
    (advance s t).done = true := by
  obtain ⟨hb, hd⟩ := advance_busy_done s t
  rw [hb] at hend
  rw [hd]
  cases he : s.endsCommand with
  | true => rw [endedBy_of_ends _ he, endCommand_done]
  | false =>
    rw [endedBy_of_runs _ he, hbusy] at hend
    cases hend

/-! ## The two steps (42_bus_addressor.md R222, R223) -/

/-- The SEL_OFF step on a state whose flags alone the port has changed. -/
theorem selOffStep_frame (s f : State) : selOffStep s (s.withFlagsOf f) =
    (if s.selOffUs.toNat ≤ (elapsed s.us s.tStart).toNat then turnOn s s else s).withFlagsOf
      (selOffStep s (s.withFlagsOf f)) := by
  rcases selOffStep_cases s (s.withFlagsOf f) with ⟨hel, h⟩ | ⟨hel, h⟩ <;> rw [h]
  · rw [if_pos hel]
    rfl
  · rw [if_neg (Nat.not_le.mpr hel)]
    rfl

/-- The SEL_ON step on a state whose flags alone the port has changed: the next pulse, the capture of a READ,
the end of a SELECT, or nothing. -/
theorem selOnStep_frame {s : State} (f : State) (hop : s.curOp = opRead ∨ s.curOp = opSelect) :
    selOnStep s (s.withFlagsOf f) =
      (if s.selOnUs.toNat ≤ (elapsed s.us s.tStart).toNat then
        if 1 < s.selRemain.toNat then nextPulse s s
        else if s.curOp = opRead then beginCapture s (clearRemain s)
        else { setResult .none (clearRemain s) with phase := .idle, busy := false }
      else s).withFlagsOf (selOnStep s (s.withFlagsOf f)) := by
  rcases selOnStep_cases s (s.withFlagsOf f) with ⟨hel, hrem, h⟩ | ⟨hel, hrem, h⟩ | ⟨hel, h⟩ <;> rw [h]
  · rw [if_pos hel, if_pos hrem]
    rfl
  · rw [if_pos hel, if_neg (Nat.not_lt.mpr hrem)]
    rcases selectDone_cases s (s.withFlagsOf f) with ⟨hread, hd⟩ | ⟨hsel, hd⟩ | ⟨hread, hsel, -⟩
    · rw [hd, if_pos hread]
      rfl
    · rw [hd, if_neg (by rw [hsel]; decide)]
      rfl
    · exact absurd hop (not_or.mpr ⟨hread, hsel⟩)
  · rw [if_neg (Nat.not_le.mpr hel)]
    rfl

/-- Settles O19: the port leaves the flags only, and the SEL_OFF step does the rest. -/
theorem selOffEdge : Obligations.SelOffEdge := by
  intro s hbusy hphase hrst
  obtain ⟨f, hstep⟩ := step_of_busy hbusy hrst
  have hunit := selOffStep_frame s f
  rw [← phaseStep_selOff _ _ hphase] at hunit
  exact ⟨_, hstep, advance_frame_of_phaseStep hunit⟩

/-- Settles O20: the port leaves the flags only, the SEL_ON step does the rest, and it clears BUSY only where it
ends the command. -/
theorem selOnEdge : Obligations.SelOnEdge := by
  intro s hbusy hphase hrst hop
  obtain ⟨f, hstep⟩ := step_of_busy hbusy hrst
  have hunit := selOnStep_frame f hop
  rw [← phaseStep_selOn _ _ hphase] at hunit
  exact ⟨_, hstep, advance_frame_of_phaseStep hunit, done_of_advance_ends hbusy⟩

end Sys2Proof.Machine

/-! The Pulse Capture Engine (43_pulse_capture.md): its two steps, edge by edge. -/

namespace Sys2Proof.Machine

/-! ## The frame of an edge whose unit leaves DONE and IGN to the host -/

/-- While a command runs, a unit whose step leaves DONE and IGN alone does to the whole edge what it does to the
pre-edge state, but for those flags and what every edge moves on. -/
theorem step_frame_of_flags {s : State} (hbusy : s.busy = true) (hrst : s.hostPins.rst = false)
    (hflags : ∀ f, phaseStep s (s.withFlagsOf f) = (phaseStep s s).withFlagsOf f) :
    ∃ t, step s = .next t ∧ t = ((phaseStep s s).withFlagsOf t).withTimeOf t := by
  obtain ⟨f, hstep⟩ := step_of_busy hbusy hrst
  refine ⟨_, hstep, advance_frame_of_phaseStep ?_⟩
  rw [hflags f]
  rfl

/-! ## The CAP_HIGH step (43_pulse_capture.md R244) -/

theorem capHighStep_eq (s t : State) : capHighStep s t =
    if s.sync2 = false then startPulse s t
    else if s.toEn = true ∧ s.timeoutUs.toNat ≤ (elapsed s.us s.tStart).toNat then beginEval t
    else t := by
  simp only [capHighStep, timedOut_iff]

theorem capHighStep_withFlagsOf (s t f : State) :
    capHighStep s (t.withFlagsOf f) = (capHighStep s t).withFlagsOf f := by
  unfold capHighStep
  split_ifs <;> rfl

/-- Settles O21: the port leaves the flags only, and the CAP_HIGH step does the rest. -/
theorem capHighEdge : Obligations.CapHighEdge := by
  intro s hbusy hphase hrst
  have hunit (t : State) : phaseStep s t = capHighStep s t := phaseStep_capHigh s t hphase
  obtain ⟨t, hstep, ht⟩ := step_frame_of_flags hbusy hrst fun f => by
    rw [hunit, hunit, capHighStep_withFlagsOf]
  rw [hunit, capHighStep_eq] at ht
  exact ⟨t, hstep, ht⟩

/-! ## The CAP_LOW step (43_pulse_capture.md R245, R247) -/

theorem storeDuration_getElem?_same {s t : State} (h : s.durCount.toNat ≤ 95) :
    (storeDuration s t).dur[s.durCount.toNat]? = some (sat16 (elapsed s.us s.tFall)) := by
  rw [storeDuration_dur, Vector.getElem?_setIfInBounds_self_of_lt (by omega)]

theorem storeDuration_getElem?_of_ne {s t : State} {i : Nat} (h : i ≠ s.durCount.toNat) :
    (storeDuration s t).dur[i]? = t.dur[i]? := by
  rw [storeDuration_dur, Vector.getElem?_setIfInBounds_ne h.symm]

/-- The count of 95 is the last, so the increment does not wrap. -/
theorem storeDuration_durCount_toNat {s t : State} (h : s.durCount.toNat ≤ 95) :
    (storeDuration s t).durCount.toNat = s.durCount.toNat + 1 := by
  rw [storeDuration_durCount]
  bv_omega

/-- The end of a pulse: the next phase, with the duration stored. -/
theorem capLowStep_of_high {s : State} (t : State) (hs : s.sync2 = true) : capLowStep s t =
    (if s.durCount.toNat + 1 = 96 then beginEval t else nextWait s t).withDataOf (storeDuration s t) := by
  unfold capLowStep
  rw [if_pos hs]
  split_ifs <;> rfl

theorem capLowStep_of_low {s : State} (t : State) (hs : s.sync2 = false) : capLowStep s t =
    if s.toEn = true ∧ s.timeoutUs.toNat ≤ (elapsed s.us s.tFall).toNat then beginEval t else t := by
  simp only [capLowStep, hs, Bool.false_eq_true, if_false, timedOut_iff]

theorem capLowStep_withFlagsOf (s t f : State) :
    capLowStep s (t.withFlagsOf f) = (capLowStep s t).withFlagsOf f := by
  unfold capLowStep
  split_ifs <;> rfl

/-- Settles O22: the port leaves the flags only; a high level stores the duration, and at a low level only
the timeout acts. -/
theorem capLowEdge : Obligations.CapLowEdge := by
  intro s hbusy hphase hcount hrst
  have hunit (t : State) : phaseStep s t = capLowStep s t := phaseStep_capLow s t hphase
  obtain ⟨t, hstep, ht⟩ := step_frame_of_flags hbusy hrst fun f => by
    rw [hunit, hunit, capLowStep_withFlagsOf]
  rw [hunit] at ht
  refine ⟨t, hstep, fun hs => ?_, fun hs => ?_⟩
  · rw [capLowStep_of_high s hs] at ht
    have hdur : t.dur = (storeDuration s s).dur := (congrArg State.dur ht).trans rfl
    have hdc : t.durCount = (storeDuration s s).durCount := (congrArg State.durCount ht).trans rfl
    rw [hdur, hdc]
    exact ⟨storeDuration_getElem?_same hcount, fun _ hi => storeDuration_getElem?_of_ne hi,
      storeDuration_durCount_toNat hcount, ht⟩
  · rw [capLowStep_of_low s hs] at ht
    exact ht

end Sys2Proof.Machine

/-! The Bit/Byte Decoder (44_bit_byte_decoder.md): the bits of a decoded byte are the thresholds of its
durations, the first duration the most significant. -/

namespace Sys2Proof.Machine

/-! ## A number written with its most significant bit first (44_bit_byte_decoder.md R273) -/

/-- The number of the bits `p 0`, …, `p (n - 1)`, the first the most significant. -/
def msbFirst (p : Nat → Bool) (n : Nat) : Nat :=
  ((List.range n).map fun i => (p i).toNat * 2 ^ (n - 1 - i)).sum

/-- Horner's rule: one more bit doubles the weight of those before it. -/
theorem msbFirst_succ (p : Nat → Bool) (n : Nat) : msbFirst p (n + 1) = Nat.bit (p n) (msbFirst p n) := by
  have hweight : ∀ i ∈ List.range n,
      (p i).toNat * 2 ^ (n + 1 - 1 - i) = 2 * ((p i).toNat * 2 ^ (n - 1 - i)) := by
    intro i hi
    have hlt : i < n := List.mem_range.mp hi
    rw [show n + 1 - 1 - i = n - 1 - i + 1 by omega, Nat.pow_succ]
    ring
  rw [msbFirst, List.sum_range_succ, List.map_congr_left hweight, List.sum_map_mul_left, Nat.bit_val]
  simp [msbFirst]

theorem msbFirst_testBit (p : Nat → Bool) {n i : Nat} (h : i < n) :
    (msbFirst p n).testBit (n - 1 - i) = p i := by
  induction n with
  | zero => omega
  | succ n ih =>
    rw [msbFirst_succ]
    rcases Nat.lt_succ_iff_lt_or_eq.mp h with hlt | rfl
    · rw [show n + 1 - 1 - i = n - 1 - i + 1 by omega, Nat.testBit_bit_succ, ih hlt]
    · rw [show i + 1 - 1 - i = 0 by omega, Nat.testBit_bit_zero]

/-! ## Durations and bytes -/

/-- R272 as a flag: a duration above the threshold. -/
def durationAbove (d : Duration) : Bool := decide (26 < d.toNat)

theorem durationBit_eq_toNat (d : Duration) : durationBit d = (durationAbove d).toNat := by
  unfold durationBit durationAbove
  by_cases h : 26 < d.toNat <;> simp [h]

theorem durationAt_of_lt (dur : Vector Duration 96) {k : Nat} (h : k < 96) : durationAt dur k = dur[k] := by
  simp [durationAt, h]

theorem decodedByte_eq_msbFirst (dur : Vector Duration 96) (j : Nat) :
    decodedByte dur j =
      BitVec.ofNat 8 (msbFirst (fun i => durationAbove (durationAt dur (8 * j + i))) 8) := by
  simp only [decodedByte, durationBit_eq_toNat, msbFirst]

theorem decodedByte_getLsbD (dur : Vector Duration 96) (j : Nat) {i : Nat} (h : i < 8) :
    (decodedByte dur j).getLsbD (7 - i) = durationAbove (durationAt dur (8 * j + i)) := by
  have hbit := msbFirst_testBit (fun i => durationAbove (durationAt dur (8 * j + i))) h
  rw [decodedByte_eq_msbFirst, BitVec.getLsbD_ofNat, hbit, decide_eq_true (by omega), Bool.true_and]

/-! ## The decoded frame -/

theorem decodeDurations_full (dur : Vector Duration 96) :
    decodeDurations dur 96 = .bytes (Vector.ofFn fun j : Fin 12 => decodedByte dur j.val) 12 := rfl

theorem decodeDurations_of_ne (dur : Vector Duration 96) {cnt : BitVec 7} (h : cnt ≠ 96) :
    decodeDurations dur cnt = .empty := by
  rcases decodeDurations_cases dur cnt with ⟨hcnt, -⟩ | ⟨-, hempty⟩
  · exact absurd (BitVec.eq_of_toNat_eq hcnt) h
  · exact hempty

/-- Settles O32: a byte's bits are its eight flags, and the decoder answers a frame for the count 96 only. -/
theorem decodedBitsAreTheThresholds : Obligations.DecodedBitsAreTheThresholds := by
  refine ⟨fun dur => ⟨_, decodeDurations_full dur, fun j i => ?_⟩, fun dur _ => decodeDurations_of_ne dur⟩
  have hin : 8 * j.val + i.val < 96 := by omega
  rw [Fin.getElem_fin, Vector.getElem_ofFn, decodedByte_getLsbD dur j i.isLt, durationAt_of_lt dur hin,
    durationAbove]

/-- Eight durations on the same side of the threshold give a byte of equal bits. -/
theorem decodedByte_of_uniform {dur : Vector Duration 96} {above : Bool} {v : Byte} {j : Nat} (hj : j < 12)
    (hdur : ∀ i : Fin 96, durationAbove dur[i] = above) (hv : ∀ k < 8, v.getLsbD k = above) :
    decodedByte dur j = v := by
  apply BitVec.eq_of_getLsbD_eq
  intro k hk
  have hin : 8 * j + (7 - k) < 96 := by omega
  calc
    (decodedByte dur j).getLsbD k = (decodedByte dur j).getLsbD (7 - (7 - k)) := by
      rw [show 7 - (7 - k) = k by omega]
    _ = durationAbove dur[8 * j + (7 - k)] := by
      rw [decodedByte_getLsbD dur j (by omega), durationAt_of_lt dur hin]
    _ = above := hdur ⟨_, hin⟩
    _ = v.getLsbD k := (hv k hk).symm

theorem decodeDurations_of_uniform {dur : Vector Duration 96} {above : Bool} {v : Byte}
    (hdur : ∀ i : Fin 96, durationAbove dur[i] = above) (hv : ∀ k < 8, v.getLsbD k = above) :
    decodeDurations dur 96 = .bytes (Vector.replicate 12 v) 12 := by
  have hbytes : (Vector.ofFn fun j : Fin 12 => decodedByte dur j.val) = Vector.replicate 12 v := by
    ext1 j hj
    rw [Vector.getElem_ofFn, Vector.getElem_replicate, decodedByte_of_uniform hj hdur hv]
  rw [decodeDurations_full, hbytes]

/-- Settles O33: the empty frame has no response, and equal flags give equal bits. -/
theorem uniformDurationsDecodeUniformly : Obligations.UniformDurationsDecodeUniformly := by
  refine fun dur => ⟨fun cnt hcnt => ?_, fun habove => ?_, fun hbelow => ?_⟩
  · rw [decodeDurations_of_ne dur hcnt]
    rfl
  · exact decodeDurations_of_uniform (above := true) (fun i => decide_eq_true (habove i)) (by decide)
  · exact decodeDurations_of_uniform (above := false) (fun i => decide_eq_false (Nat.not_lt.mpr (hbelow i)))
      (by decide)

end Sys2Proof.Machine

/-! The Frame Validator (45_frame_validator.md): the nibble, the checksum and the segments of a frame as numbers
and bytes of its slots, and the verdict at each step. -/

namespace Sys2Proof.Machine

/-! ## The bytes of a frame -/

theorem frameByte_of_lt (b : Vector Byte 12) {i : Nat} (h : i < 12) : frameByte b i = b[i] := by
  simp [frameByte, h]

theorem frameByte_eq_getD (b : Vector Byte 12) (i : Nat) : frameByte b i = b.toList.getD i 0 := by
  rw [frameByte, List.getD_eq_getElem?_getD, Vector.getElem?_toList]

/-- R292: the preamble is the byte's high nibble. -/
theorem preambleNibble_toNat (b : Vector Byte 12) : (preambleNibble b).toNat = b[0].toNat / 16 := by
  have hlt : b[0].toNat / 16 < 16 := by omega
  rw [preambleNibble, frameByte_of_lt b (by omega), BitVec.extractLsb'_toNat, Nat.shiftRight_eq_div_pow,
    Nat.mod_eq_of_lt hlt]

theorem preambleNibble_eq_nine_iff (b : Vector Byte 12) : preambleNibble b = 9 ↔ b[0].toNat / 16 = 9 := by
  rw [← preambleNibble_toNat, ← BitVec.toNat_inj]
  rfl

/-! ## The segments and their sum -/

/-- R295: segment `j` is the byte of slot `2 + j`. -/
theorem rawSegments_getElem? {b : Vector Byte 12} {j : Nat} (h : j < baseSeg b - 1) :
    (rawSegments b)[j]? = b[2 + j]? := by
  have hslot : 2 + j < 12 := by have := baseSeg_le b; omega
  rw [rawSegments, List.getElem?_map, List.getElem?_range h, Option.map_some, frameByte_of_lt b hslot,
    Vector.getElem?_eq_getElem hslot]

/-- The quirk's test, in slots: a second segment, of value 0. -/
theorem rawSegments_one_eq_zero_iff (b : Vector Byte 12) :
    (rawSegments b)[1]? = some 0 ↔ 2 ≤ baseSeg b - 1 ∧ b[3] = 0 := by
  by_cases h : 2 ≤ baseSeg b - 1
  · rw [rawSegments_getElem? h, Vector.getElem?_eq_getElem (by omega), Option.some_inj]
    exact (and_iff_right h).symm
  · have hnone : (rawSegments b)[1]? = none := by
      rw [List.getElem?_eq_none_iff, rawSegments_length]
      omega
    simp [hnone, h]

theorem sumBytes_rawSegments (b : Vector Byte 12) :
    sumBytes (rawSegments b) = ∑ i ∈ Finset.Icc 2 (baseSeg b), (b.toList.getD i 0).toNat := by
  calc
    sumBytes (rawSegments b) = ∑ j ∈ Finset.range (baseSeg b + 1 - 2), (frameByte b (2 + j)).toNat := by
      rw [sumBytes, rawSegments, List.map_map]
      rfl
    _ = ∑ i ∈ Finset.Icc 2 (baseSeg b), (frameByte b i).toNat := by
      rw [← Finset.Ico_add_one_right_eq_Icc, Finset.sum_Ico_eq_sum_range]
    _ = ∑ i ∈ Finset.Icc 2 (baseSeg b), (b.toList.getD i 0).toNat := by
      simp only [frameByte_eq_getD]

/-- R294: the checksum as a number is the non-negative remainder. -/
theorem checksum_toNat (b : Vector Byte 12) :
    ((checksum b).toNat : Int) = ((sumBytes (rawSegments b) : Int) - 2) % 256 := by
  rw [checksum, BitVec.toNat_ofInt]
  exact Int.toNat_of_nonneg (Int.emod_nonneg _ (by decide))

theorem checksum_eq_iff (b : Vector Byte 12) : checksum b = frameByte b 1 ↔
    ((∑ i ∈ Finset.Icc 2 (baseSeg b), (b.toList.getD i 0).toNat : Nat) - 2 : Int) % (256 : Int) =
      b[1].toNat := by
  rw [← sumBytes_rawSegments, ← checksum_toNat, frameByte_of_lt b (by omega), ← BitVec.toNat_inj, Nat.cast_inj]

/-! ## The quirk (45_frame_validator.md R296) -/

theorem quirk_getElem?_of_pos (seg : List Byte) {j : Nat} (h : 1 ≤ j) : (quirk seg)[j]? = seg[j]? := by
  obtain ⟨k, rfl⟩ := Nat.exists_eq_add_of_le' h
  unfold quirk
  split <;> rfl

theorem quirk_getElem?_zero_of_zero {seg : List Byte} (h : seg[1]? = some 0) : (quirk seg)[0]? = some 0 := by
  match seg, h with
  | x :: y :: rest, h =>
    have hy : y = 0 := by simpa using h
    simp [quirk, hy]

theorem quirk_of_ne {seg : List Byte} (h : seg[1]? ≠ some 0) : quirk seg = seg := by
  match seg, h with
  | [], _ => rfl
  | [_], _ => rfl
  | x :: y :: rest, h =>
    have hy : y ≠ 0 := by simpa using h
    rw [quirk, if_neg hy]

section
variable {b : Vector Byte 12}

theorem quirk_rawSegments_getElem?_of_pos {j : Nat} (hpos : 1 ≤ j) (h : j < baseSeg b - 1) :
    (quirk (rawSegments b))[j]? = b[2 + j]? := by
  rw [quirk_getElem?_of_pos _ hpos, rawSegments_getElem? h]

theorem quirk_rawSegments_zero_of_zero (h : 2 ≤ baseSeg b - 1) (hz : b[3] = 0) :
    (quirk (rawSegments b))[0]? = some 0 :=
  quirk_getElem?_zero_of_zero ((rawSegments_one_eq_zero_iff b).mpr ⟨h, hz⟩)

theorem quirk_rawSegments_zero_of_ne (h : 1 ≤ baseSeg b - 1) (hne : ¬ (2 ≤ baseSeg b - 1 ∧ b[3] = 0)) :
    (quirk (rawSegments b))[0]? = b[2]? := by
  rw [quirk_of_ne (mt (rawSegments_one_eq_zero_iff b).mp hne), rawSegments_getElem? h]

end

/-! ## The verdict, step by step (45_frame_validator.md R290, R291) -/

theorem validate_of_count_ne (b : Vector Byte 12) {cnt : BitVec 4} (h : cnt ≠ 12) :
    validate (.bytes b cnt) = .fail .noResponse :=
  if_pos fun hcnt => h (BitVec.eq_of_toNat_eq hcnt)

/-- A whole frame: the preamble, then the checksum, then the segments. -/
theorem validate_full (b : Vector Byte 12) : validate (.bytes b 12) =
    if preambleNibble b ≠ 9 then .fail .preambleInvalid
    else if checksum b ≠ frameByte b 1 then .fail .checksumMismatch
    else .segs (quirk (rawSegments b)) := rfl

/-- Settles O35: each step's test as a test of the frame's bytes, and the quirk slot by slot. -/
theorem validationStepsInOrder : Obligations.ValidationStepsInOrder := by
  refine ⟨rfl, ?_⟩
  rintro b cnt cs rfl
  have hnibble := preambleNibble_eq_nine_iff b
  have hbyte := checksum_eq_iff b
  refine ⟨validate_of_count_ne b, ?_, ?_, ?_⟩
  · rintro rfl hpre
    rw [validate_full, if_pos (mt hnibble.mp hpre)]
  · rintro rfl hpre hsum
    rw [validate_full, if_neg (not_not.mpr (hnibble.mpr hpre)), if_pos (mt hbyte.mp hsum)]
  · rintro rfl hpre hsum
    refine ⟨quirk (rawSegments b), ?_, ?_⟩
    · rw [validate_full, if_neg (not_not.mpr (hnibble.mpr hpre)), if_neg (not_not.mpr (hbyte.mpr hsum))]
    · rw [quirk_length, rawSegments_length]
      exact ⟨rfl, fun j => quirk_rawSegments_getElem?_of_pos, quirk_rawSegments_zero_of_zero,
        quirk_rawSegments_zero_of_ne⟩

end Sys2Proof.Machine

/-! The Level Decoder (46_level_decoder.md): `level` by what a segment array holds and where its first non-zero
segment stands. -/

namespace Sys2Proof.Machine

/-! ## The leading zeros (46_level_decoder.md R320, R322) -/

theorem dropWhile_zero_eq_nil_iff {seg : List Byte} :
    seg.dropWhile (fun b => b == 0) = [] ↔ ∀ x ∈ seg, x = 0 := by
  simp only [List.dropWhile_eq_nil_iff, beq_iff_eq]

/-- level_seg is where the leading zeros end: they drop to seg[ls] and the segments after it. -/
theorem dropWhile_zero_of_first {seg : List Byte} {ls : Nat} {x : Byte} (hx : seg[ls]? = some x) (hne : x ≠ 0)
    (hzero : ∀ i, i < ls → seg[i]? = some 0) :
    seg.dropWhile (fun b => b == 0) = x :: seg.drop (ls + 1) := by
  obtain ⟨hlt, rfl⟩ := List.getElem?_eq_some_iff.mp hx
  have hfirst : seg.findIdx (fun b => !(b == 0)) = ls := by
    refine (List.findIdx_eq hlt).mpr ⟨by simpa using hne, fun i hi => ?_⟩
    obtain ⟨_, hi0⟩ := List.getElem?_eq_some_iff.mp (hzero i hi)
    simp [hi0]
  rw [List.dropWhile_eq_drop_findIdx_not, hfirst, List.drop_eq_getElem_cons hlt]

/-! ## The three branches of `level` -/

theorem level_of_all_zero {seg : List Byte} (h : ∀ x ∈ seg, x = 0) (cal : Option (BitVec 16)) :
    level seg cal = .pct 0 1 := by
  rcases level_cases seg cal with ⟨-, hlevel⟩ | ⟨x, after, hdrop, -⟩
  · exact hlevel
  · rw [dropWhile_zero_eq_nil_iff.mpr h] at hdrop
    cases hdrop

theorem level_some_of_nonzero {seg : List Byte} (h : ∃ x ∈ seg, x ≠ 0) (ref : BitVec 16) :
    level seg (some ref) = calibratedLevel seg ref := by
  obtain ⟨x, hmem, hne⟩ := h
  rcases level_cases seg (some ref) with ⟨hdrop, -⟩ | ⟨_, _, -, ⟨_, ⟨⟩, hlevel⟩ | ⟨hnone, -⟩⟩
  · exact absurd (dropWhile_zero_eq_nil_iff.mp hdrop x hmem) hne
  · exact hlevel
  · cases hnone

theorem level_none_of_dropWhile {seg after : List Byte} {x : Byte}
    (h : seg.dropWhile (fun b => b == 0) = x :: after) :
    level seg none = uncalibratedLevel seg.length x after := by
  rcases level_cases seg none with ⟨hdrop, -⟩ | ⟨y, after', hdrop, ⟨_, hsome, -⟩ | ⟨-, hlevel⟩⟩
  · rw [h] at hdrop
    cases hdrop
  · cases hsome
  · rw [h] at hdrop
    cases hdrop
    exact hlevel

/-! ## The two statements -/

/-- R327, R328: a zero reference is a fault, every other one the denominator. -/
theorem calibratedLevel_eq (seg : List Byte) (ref : BitVec 16) : calibratedLevel seg ref =
    if ref = 0 then .levelFault else .pct (100 * (seg.map BitVec.toNat).sum) ref.toNat := by
  have hzero : ref.toNat = 0 ↔ ref = 0 := BitVec.toNat_inj (y := 0#16)
  simp only [calibratedLevel, sumBytes, hzero]

/-- Settles O39: the branch without a non-zero segment, and the calibrated one. -/
theorem calibratedLevelIsTheRatio : Obligations.CalibratedLevelIsTheRatio :=
  ⟨fun _ cal h => level_of_all_zero h cal,
    fun seg ref h => (level_some_of_nonzero h ref).trans (calibratedLevel_eq seg ref)⟩

/-- R323: the level segment is the last one. Its value is at most 255, so the clamp does not apply. -/
theorem uncalibratedLevel_nil {n : Nat} (x : Byte) (hn : 1 ≤ n) :
    uncalibratedLevel n x [] = .pct (100 * x.toNat) (255 * n) := by
  have hx := x.isLt
  have hfits : ¬ 100 * (Config.noCalAvg * n) < 100 * x.toNat := by rw [Config.noCalAvg]; omega
  rw [uncalibratedLevel, if_pos List.length_nil, clampPct, if_neg hfits]

/-- R324 to R326: segments stand after the level segment. -/
theorem uncalibratedLevel_of_length_ne_zero (n : Nat) (x : Byte) {after : List Byte} (h : after.length ≠ 0) :
    uncalibratedLevel n x after =
      if sumBytes after = 0 then .levelFault
      else clampPct (100 * after.length * (x.toNat + sumBytes after)) (sumBytes after * n) :=
  if_neg h

/-- Settles O40: the segments after index `ls` are what `level` is left with, and there are `k` of them. -/
theorem uncalibratedLevelByIndex : Obligations.UncalibratedLevelByIndex := by
  rintro seg ls x n k a hx hne hzero rfl rfl rfl
  obtain ⟨hlt, -⟩ := List.getElem?_eq_some_iff.mp hx
  have hk : (seg.drop (ls + 1)).length = seg.length - 1 - ls := by rw [List.length_drop]; omega
  rw [level_none_of_dropWhile (dropWhile_zero_of_first hx hne hzero), ← hk]
  split
  next hnil => rw [List.length_eq_zero_iff.mp hnil, uncalibratedLevel_nil x (by omega)]
  next hafter => exact uncalibratedLevel_of_length_ne_zero seg.length x hafter

end Sys2Proof.Machine

/-! Ignored requests (60_exceptions.md R371): the port either carries one, and then leaves the pre-edge state but for
IGN, or writes IGN only by a W1C write. -/

namespace Sys2Proof.Machine

/-! ## The OP of a word that names a command, and of one that does not (30_encoding.md R132, R133) -/

theorem opField_of_decode_ok {d : Word} {i : Instr} (h : decode d = .ok i) : opField d = i.op := by
  unfold decode at h
  split at h
  case h_9 => cases h
  all_goals
    next hop =>
      cases h
      exact BitVec.eq_of_toNat_eq hop

theorem reserved_of_decode_error {d : Word} {e : DecodeError} (h : decode d = .error e) :
    8 ≤ (opField d).toNat := by
  by_contra hlt
  interval_cases hop : (opField d).toNat <;> simp [decode, hop] at h

theorem op_toNat_le (i : Instr) : i.op.toNat ≤ 7 := by cases i <;> simp [Instr.op]

theorem one_le_op_toNat_iff (i : Instr) : 1 ≤ i.op.toNat ↔ i ≠ .nop := by
  cases i <;> simp [Instr.op]

/-! ## The port operations of R371, by what the port carries -/

theorem write_of_ignoredRequest {s : State} : s.ignoredRequest → ∃ a d, s.busOp = .write a d :=
  fun ⟨a, d, hbus, _⟩ => ⟨a, d, hbus⟩

theorem write_of_clearsIgn {s : State} : s.clearsIgn → ∃ a d, s.busOp = .write a d :=
  fun ⟨a, d, hbus, _⟩ => ⟨a, d, hbus⟩

section Write

variable {s : State} {a : Addr} {d : Word}

/-- A word written to CMD that names a command is ignored exactly when the block is busy, unless it is a NOP. -/
theorem ignoredRequest_command_iff {i : Instr} (hbus : s.busOp = .write a d) (ha : regAt a = .cmd)
    (hd : decode d = .ok i) : s.ignoredRequest ↔ i ≠ .nop ∧ s.busy = true := by
  have hle := op_toNat_le i
  have hnot : ¬ 8 ≤ i.op.toNat := by omega
  simp [State.ignoredRequest, hbus, ha, opField_of_decode_ok hd, Reg.access, one_le_op_toNat_iff, hle, hnot]

theorem ignoredRequest_of_reserved {e : DecodeError} (hbus : s.busOp = .write a d) (ha : regAt a = .cmd)
    (hd : decode d = .error e) : s.ignoredRequest :=
  ⟨a, d, hbus, .inl ⟨ha, reserved_of_decode_error hd⟩⟩

/-- A write to a register other than CMD is ignored exactly when the register is RW-idle and the block busy. -/
theorem ignoredRequest_hostWrite_iff (hbus : s.busOp = .write a d) (ha : regAt a ≠ .cmd) :
    s.ignoredRequest ↔ (regAt a).access = .rwIdle ∧ s.busy = true := by
  simp [State.ignoredRequest, hbus, ha]

theorem clearsIgn_iff_of_write (hbus : s.busOp = .write a d) :
    s.clearsIgn ↔ regAt a = .status ∧ d.getLsbD 2 = true := by
  simp [State.clearsIgn, hbus]

/-! ## What the port leaves after each write -/

theorem portLeaves_command {u : State} {i : Instr} (hbus : s.busOp = .write a d) (ha : regAt a = .cmd)
    (hd : decode d = .ok i) (hu : PortLeaves s u) : exec i s = .next u := by
  have hcmd : s.command = some i := by simp [State.command, hbus, ha, hd]
  rcases hu with ⟨j, hj, hexec⟩ | ⟨hnone, -⟩
  · cases hcmd.symm.trans hj
    exact hexec
  · cases hcmd.symm.trans hnone

theorem portLeaves_reserved {u : State} {e : DecodeError} (hbus : s.busOp = .write a d) (ha : regAt a = .cmd)
    (hd : decode d = .error e) (hu : PortLeaves s u) : u = s.setIgn := by
  have hcmd : s.command = none := by simp [State.command, hbus, ha, hd]
  rcases hu with ⟨j, hj, -⟩ | ⟨-, rfl⟩
  · cases hcmd.symm.trans hj
  · simp [portEffect, hbus, ha, hd]

theorem portLeaves_hostWrite {u : State} (hbus : s.busOp = .write a d) (ha : regAt a ≠ .cmd)
    (hu : PortLeaves s u) : u = hostWrite (regAt a) d s := by
  have hcmd : s.command = none := by simp [State.command, hbus, ha]
  rcases hu with ⟨j, hj, -⟩ | ⟨-, rfl⟩
  · cases hcmd.symm.trans hj
  · simp [portEffect, hbus, ha]

end Write

theorem portLeaves_of_no_write {s u : State} (hbus : ¬ ∃ a d, s.busOp = .write a d) (hu : PortLeaves s u) :
    u = s := by
  have hboth : s.command = none ∧ portEffect s = s := by
    unfold State.command portEffect
    cases hop : s.busOp with
    | none => exact ⟨rfl, rfl⟩
    | read a => exact ⟨rfl, rfl⟩
    | write a d => exact absurd ⟨a, d, hop⟩ hbus
  obtain ⟨hcmd, hport⟩ := hboth
  rcases hu with ⟨j, hj, -⟩ | ⟨-, rfl⟩
  · cases hcmd.symm.trans hj
  · exact hport

/-! ## IGN at the port -/

theorem store_ign (r : Reg) (d : Word) (s : State) : (store r d s).ign = s.ign := by
  rw [store_frame, withDataOf_ign, withConfigOf_ign]

/-- A command that is not ignored leaves IGN. -/
theorem exec_ign {i : Instr} {s u : State} (h : exec i s = .next u) :
    (i ≠ .nop ∧ s.busy = true ∧ u = s.setIgn) ∨ (¬ (i ≠ .nop ∧ s.busy = true) ∧ u.ign = s.ign) := by
  rcases exec_cases i s u h with ⟨hi, rfl⟩ | hignored | ⟨hidle, hstart⟩
  · exact .inr ⟨fun hne => hne.1 hi, rfl⟩
  · exact .inl hignored
  · refine .inr ⟨by simp [hidle], ?_⟩
    rcases hstart with ⟨n, -, rfl⟩ | ⟨n, -, rfl⟩ | ⟨n, -, rfl⟩ | ⟨n, -, rfl⟩ | ⟨n, -, rfl⟩ | ⟨n, -, rfl⟩ |
      ⟨-, rfl⟩ <;> rfl

theorem access_eq_w1c_iff (r : Reg) : r.access = .w1c ↔ r = .status := by
  cases r <;> simp [Reg.access]

/-- The port either carries an ignored request and leaves the pre-edge state with IGN set, or carries none and
changes IGN only by clearing it. -/
theorem port_ign_cases {s u : State} (hu : PortLeaves s u) :
    (s.ignoredRequest ∧ u = s.setIgn) ∨
    (¬ s.ignoredRequest ∧ (u.ign = true ↔ s.ign = true ∧ ¬ s.clearsIgn)) := by
  by_cases hwrite : ∃ a d, s.busOp = .write a d
  case neg =>
    have hclear : ¬ s.clearsIgn := fun h => hwrite (write_of_clearsIgn h)
    rw [portLeaves_of_no_write hwrite hu]
    exact .inr ⟨fun h => hwrite (write_of_ignoredRequest h), by simp [hclear]⟩
  obtain ⟨a, d, hbus⟩ := hwrite
  by_cases ha : regAt a = .cmd
  case pos =>
    have hclear : ¬ s.clearsIgn := by simp [clearsIgn_iff_of_write hbus, ha]
    cases hd : decode d with
    | error e => exact .inl ⟨ignoredRequest_of_reserved hbus ha hd, portLeaves_reserved hbus ha hd hu⟩
    | ok i =>
      rw [ignoredRequest_command_iff hbus ha hd]
      rcases exec_ign (portLeaves_command hbus ha hd hu) with ⟨hi, hbusy, hset⟩ | ⟨hacts, hign⟩
      · exact .inl ⟨⟨hi, hbusy⟩, hset⟩
      · exact .inr ⟨hacts, by simp [hign, hclear]⟩
  case neg =>
    rw [ignoredRequest_hostWrite_iff hbus ha, clearsIgn_iff_of_write hbus, ← access_eq_w1c_iff,
      portLeaves_hostWrite hbus ha hu]
    rcases hostWrite_cases (regAt a) d s with ⟨hrw, hbusy, hw⟩ | ⟨hrw, hidle, hw⟩ | ⟨hw1c, hw⟩ | ⟨hrw, hw1c, hw⟩
    · exact .inl ⟨⟨hrw, hbusy⟩, hw⟩
    · exact .inr ⟨by simp [hidle], by simp [hw, store_ign, hrw]⟩
    · exact .inr ⟨by simp [hw1c], by simp [hw, hw1c]⟩
    · exact .inr ⟨by simp [hrw], by simp [hw, hw1c]⟩

/-! ## IGN after an edge -/

theorem endedBy_setIgn (v s : State) : v.setIgn.endedBy s = (v.endedBy s).setIgn := by
  cases he : s.endsCommand with
  | true => rw [endedBy_of_ends _ he, endedBy_of_ends _ he]; rfl
  | false => rw [endedBy_of_runs _ he, endedBy_of_runs _ he]

/-- No unit reads or writes IGN, so a request that sets it shows in IGN alone. -/
theorem advance_setIgn (s : State) : advance s s.setIgn = { advance s s with ign := true } := by
  obtain ⟨hbusy, hdone⟩ := advance_busy_done s s
  calc
    advance s s.setIgn = advance s (s.withUnreadOf s.setIgn) := rfl
    _ = { advance s s with ign := true } := by
      rw [advance_withUnreadOf, endedBy_setIgn, setIgn_busy, setIgn_done, setIgn_ign, ← hbusy, ← hdone]

/-- An edge with an ignored request is the edge without a port operation, but for IGN. -/
theorem step_of_ignoredRequest {s : State} (hrst : s.hostPins.rst = false) (hreq : s.ignoredRequest) :
    step s = .next { advance s s with ign := true } := by
  obtain ⟨u, hu, hstep⟩ := step_next s hrst
  rcases port_ign_cases hu with ⟨-, hset⟩ | ⟨hnone, -⟩
  · rw [hstep, hset, advance_setIgn]
  · exact absurd hreq hnone

theorem step_ign_iff {s t : State} (h : step s = .next t) : t.ign = true ↔
    s.hostPins.rst = false ∧ (s.ignoredRequest ∨ (s.ign = true ∧ ¬ s.clearsIgn)) := by
  rcases step_cases s t h with ⟨hrst, rfl⟩ | ⟨hrst, u, hu, rfl⟩
  · simp [hrst]
  · rw [advance_ign, phaseStep_ign]
    rcases port_ign_cases hu with ⟨hreq, rfl⟩ | ⟨hnone, hign⟩
    · simp [hrst, hreq]
    · simp [hrst, hnone, hign]

/-- Settles O13: the port answers an ignored request with the pre-edge state and IGN set, no unit reads or writes
IGN, and without such a request the port can only clear it. -/
theorem ignoredRequestsSetIgnAndNothingElse : Obligations.IgnoredRequestsSetIgnAndNothingElse :=
  ⟨fun s hrst hreq => ⟨advance s s, step_asks_none s, step_of_ignoredRequest hrst hreq⟩,
    fun _ _ h => step_ign_iff h⟩

end Sys2Proof.Machine

/-! Reset and polling (70_reset_and_hazards.md): the values of the reset state, and runs of a host whose reads are
taken off its script. -/

namespace Sys2Proof.Machine

/-! ## The reset state (70_reset_and_hazards.md R411) -/

section Reset
variable (p : Params)

theorem resetWith_cal (i : Fin 8) : (State.resetWith p).cal[i] = { valid := false, ref := 0 } :=
  Vector.getElem_replicate i.isLt

theorem resetWith_frame (i : Fin 12) : (State.resetWith p).frame[i] = 0 := Vector.getElem_replicate i.isLt

theorem resetWith_seg (i : Fin 10) : (State.resetWith p).seg[i] = 0 := Vector.getElem_replicate i.isLt

theorem resetWith_dur (i : Fin 96) : (State.resetWith p).dur[i] = 0 := Vector.getElem_replicate i.isLt

theorem resetWith_ctrlWord : (State.resetWith p).ctrlWord = 0x00000001 := by
  simp [State.ctrlWord, State.resetWith]

/-- rx_s is 1 in the reset state, so STATUS.RX reads 1. -/
theorem resetWith_statusWord : (State.resetWith p).statusWord = 0x00010000 := by
  simp [State.statusWord, State.resetWith, Phase.code, ResultCode.code]

/-- Whatever the implementation's parameters, the state they are reset to has the table's values. -/
theorem resetWith_atReset : (State.resetWith p).atReset := by
  simp only [State.atReset, resetWith_cal, resetWith_frame, resetWith_seg, resetWith_dur, resetWith_ctrlWord,
    resetWith_statusWord]
  simp [State.resetWith, ResultCode.code, Phase.code, State.irq, State.txPin]

end Reset

/-- Settles O50: the table holds for every choice of the OPEN parameters. -/
theorem resetStateHasTheResetValues : Obligations.ResetStateHasTheResetValues :=
  resetWith_atReset Config.openParams

/-! ## What the host's script means to an edge

An edge reads the script through RST and the port operation only, and hands its tail on. -/

/-- `s` with the host's script replaced by `l`. -/
def State.withHost (s : State) (l : List HostPins) : State := { s with host := l }

theorem whenIdle_withHost {act : State → State} {s : State} {l : List HostPins}
    (hact : act (s.withHost l) = (act s).withHost l) :
    whenIdle act (s.withHost l) = (whenIdle act s).withHost l := by
  cases hbusy : s.busy with
  | true => rw [whenIdle_of_busy act _ hbusy, whenIdle_of_busy act (s.withHost l) hbusy]; rfl
  | false => rw [whenIdle_of_idle act _ hbusy, whenIdle_of_idle act (s.withHost l) hbusy, hact]

theorem exec_withHost {i : Instr} {s u : State} (l : List HostPins) (h : exec i s = .next u) :
    exec i (s.withHost l) = .next (u.withHost l) := by
  cases i <;> cases h
  case nop => rfl
  all_goals exact congrArg Host.Outcome.next (whenIdle_withHost rfl)

theorem hostWrite_withHost (r : Reg) (d : Word) (s : State) (l : List HostPins) :
    hostWrite r d (s.withHost l) = (hostWrite r d s).withHost l := by
  have hstore : store r d (s.withHost l) = (store r d s).withHost l := by cases r <;> rfl
  have hbusy : (s.withHost l).busy = s.busy := rfl
  rw [hostWrite, hostWrite, hstore, hbusy]
  cases r.access <;> cases s.busy <;> rfl

/-- Two scripts whose coming edges carry the same write, or no write, leave the same state but for the script. -/
theorem port_withHost {s u u' : State} {l : List HostPins}
    (hop : ∀ a d, (s.withHost l).busOp = .write a d ↔ s.busOp = .write a d)
    (hu : PortLeaves s u) (hu' : PortLeaves (s.withHost l) u') : u' = u.withHost l := by
  by_cases hwrite : ∃ a d, s.busOp = .write a d
  case neg =>
    have hwrite' : ¬ ∃ a d, (s.withHost l).busOp = .write a d := by simpa only [hop] using hwrite
    rw [portLeaves_of_no_write hwrite hu, portLeaves_of_no_write hwrite' hu']
  obtain ⟨a, d, hbus⟩ := hwrite
  have hbus' := (hop a d).mpr hbus
  by_cases ha : regAt a = .cmd
  case neg => rw [portLeaves_hostWrite hbus ha hu, portLeaves_hostWrite hbus' ha hu', hostWrite_withHost]
  cases hd : decode d with
  | error e => rw [portLeaves_reserved hbus ha hd hu, portLeaves_reserved hbus' ha hd hu']; rfl
  | ok i =>
    have hexec := exec_withHost l (portLeaves_command hbus ha hd hu)
    exact Host.Outcome.next.inj ((portLeaves_command hbus' ha hd hu').symm.trans hexec)

theorem advance_withHost_left (s t : State) (l : List HostPins) :
    advance (s.withHost l) t = (advance s t).withHost l.tail := rfl

theorem endedBy_withHost (v s : State) (l : List HostPins) :
    (v.withHost l).endedBy s = (v.endedBy s).withHost l := by
  cases he : s.endsCommand with
  | true => rw [endedBy_of_ends _ he, endedBy_of_ends _ he]; rfl
  | false => rw [endedBy_of_runs _ he, endedBy_of_runs _ he]

theorem advance_withHost_right (s t : State) (l : List HostPins) : advance s (t.withHost l) = advance s t :=
  calc
    advance s (t.withHost l) = advance s (t.withUnreadOf (t.withHost l)) := rfl
    _ = advance s (t.withUnreadOf t) := by
      rw [advance_withUnreadOf, advance_withUnreadOf, endedBy_withHost]; rfl
    _ = advance s t := rfl

/-- Two scripts that agree on the coming edge's RST and on its write, if any, lead to the same state but for what
is left of them. -/
theorem step_withHost {s t : State} {l : List HostPins} (hrst : (s.withHost l).hostPins.rst = s.hostPins.rst)
    (hop : ∀ a d, (s.withHost l).busOp = .write a d ↔ s.busOp = .write a d) (h : step s = .next t) :
    step (s.withHost l) = .next (t.withHost l.tail) := by
  rcases step_cases s t h with ⟨hr, rfl⟩ | ⟨hr, u, hu, rfl⟩
  · exact step_of_reset (hrst.trans hr)
  · obtain ⟨u', hu', hstep⟩ := step_next _ (hrst.trans hr)
    rw [hstep, port_withHost hop hu hu', advance_withHost_left, advance_withHost_right]

/-! ## Taking the reads off the script (70_reset_and_hazards.md R426) -/

theorem withoutRead_rst (p : HostPins) : (withoutRead p).rst = p.rst := by
  unfold withoutRead
  split <;> rfl

theorem busOpOf_withoutRead_eq_write_iff (p : HostPins) (a : Addr) (d : Word) :
    busOpOf (withoutRead p) = .write a d ↔ busOpOf p = .write a d := by
  obtain ⟨rst, en, we, a', d'⟩ := p
  cases en <;> cases we <;> simp [withoutRead, busOpOf]

/-- `s` with every read taken off the host's script. -/
def State.withoutReads (s : State) : State := s.withHost (s.host.map withoutRead)

/-- The pins of the coming edge lose their read, or are the free draw as before where the script is empty. -/
theorem withoutReads_hostPins (s : State) :
    s.withoutReads.hostPins = withoutRead s.hostPins ∨ s.withoutReads.hostPins = s.hostPins := by
  unfold State.withoutReads State.withHost State.hostPins
  cases s.host with
  | nil => exact .inr rfl
  | cons p rest => exact .inl rfl

theorem withoutReads_rst (s : State) : s.withoutReads.hostPins.rst = s.hostPins.rst := by
  rcases withoutReads_hostPins s with h | h
  · rw [h, withoutRead_rst]
  · rw [h]

theorem withoutReads_busOp_eq_write_iff (s : State) (a : Addr) (d : Word) :
    s.withoutReads.busOp = .write a d ↔ s.busOp = .write a d := by
  unfold State.busOp
  rcases withoutReads_hostPins s with h | h
  · rw [h, busOpOf_withoutRead_eq_write_iff]
  · rw [h]

theorem step_host {s t : State} (h : step s = .next t) : t.host = s.host.tail := by
  rcases step_cases s t h with ⟨-, rfl⟩ | ⟨-, u, -, rfl⟩ <;> rfl

/-- A read is no write, so without it the edge differs in the script alone. -/
theorem step_withoutReads {s t : State} (h : step s = .next t) :
    step s.withoutReads = .next t.withoutReads := by
  have hstep := step_withHost (withoutReads_rst s) (withoutReads_busOp_eq_write_iff s) h
  rwa [← List.map_tail, ← step_host h] at hstep

theorem runFor_withoutReads {n : Nat} {s t : State} (h : runFor n s = some t) :
    runFor n s.withoutReads = some t.withoutReads := by
  induction n generalizing s with
  | zero =>
    cases h
    rfl
  | succ n ih =>
    obtain ⟨u, hu, ht⟩ := runFor_succ_inv h
    rw [runFor_succ _ _ _ (step_withoutReads hu)]
    exact ih ht

/-- Settles O46: by induction on the edges, each of which differs in the script alone. -/
theorem pollingDoesNotDisturbARun : Obligations.PollingDoesNotDisturbARun :=
  fun _ _ _ h => runFor_withoutReads h

end Sys2Proof.Machine

/-! The command words (30_encoding.md): a word is its fields, and `decode` reads two of them. -/

namespace Sys2Proof.Machine
open Sys2Proof.Laws

/-! ## Words and their fields (30_encoding.md R130) -/

/-- Settles O1: the fields of the word written for a command are the command's own. -/
theorem decodeOfEncodeIsTheCommand : Obligations.DecodeOfEncodeIsTheCommand :=
  fun i _ => decode_encode i

/-- The decoder reads OP and SENSOR only. -/
theorem decode_congr {d d' : Word} (hop : opField d = opField d') (hsensor : sensorField d = sensorField d') :
    decode d = decode d' := by
  simp only [decode, hop, hsensor]

/-- NOP and CLRCNT have no operand, so SENSOR counts for nothing (30_encoding.md R131). -/
theorem decode_congr_of_no_operand {d d' : Word} (hop : opField d = opField d')
    (hnone : opField d = opNop ∨ opField d = opClrcnt) : decode d = decode d' := by
  rcases hnone with h | h
  · rw [decode_of_opField_zero h, decode_of_opField_zero (hop.symm.trans h)]
  · rw [decode_of_opField_seven h, decode_of_opField_seven (hop.symm.trans h)]

theorem opField_append (hi : BitVec 16) (n : Sensor) (mid : BitVec 4) (op : Opcode) :
    opField (hi ++ n ++ mid ++ op) = op := by
  apply BitVec.eq_of_getLsbD_eq
  intro k hk
  rw [opField, BitVec.getLsbD_extractLsb', BitVec.getLsbD_append]
  simp [hk]

theorem sensorField_append (hi : BitVec 16) (n : Sensor) (mid : BitVec 4) (op : Opcode) :
    sensorField (hi ++ n ++ mid ++ op) = n := by
  apply BitVec.eq_of_getLsbD_eq
  intro k hk
  rw [sensorField, BitVec.getLsbD_extractLsb', BitVec.getLsbD_append, BitVec.getLsbD_append,
    BitVec.getLsbD_append]
  simp [hk, show ¬ 8 + k < 4 by omega, show ¬ 8 + k - 4 < 4 by omega, show 8 + k - 4 - 4 = k by omega]

/-- Settles O2: the two fields the decoder reads are those of the word with the ignored bits 0. -/
theorem ignoredBitsDoNotMatter : Obligations.IgnoredBitsDoNotMatter := by
  refine ⟨fun hi n mid op => decode_congr ?_ ?_, fun op n n' h => decode_congr_of_no_operand ?_ ?_⟩
  · rw [opField_append, commandWord_op]
  · rw [sensorField_append, commandWord_sensor]
  · rw [commandWord_op, commandWord_op]
  · rwa [commandWord_op]

/-! ## Canonical words (30_encoding.md R136) -/

theorem wordIgnoredZero_iff (d : Word) :
    wordIgnoredZero d = true ↔ d.extractLsb' 4 4 = 0 ∧ d.extractLsb' 16 16 = 0 := by
  simp [wordIgnoredZero]

/-- A word whose ignored bits are 0 is the word of its two fields. -/
theorem commandWord_fields {d : Word} (h : wordIgnoredZero d = true) :
    commandWord (opField d) (sensorField d) = d := by
  obtain ⟨hmid, hhi⟩ := (wordIgnoredZero_iff d).mp h
  apply BitVec.eq_of_getLsbD_eq
  intro k hk
  have hmidBit := congrArg (fun v => v.getLsbD (k - 4)) hmid
  have hhiBit := congrArg (fun v => v.getLsbD (k - 16)) hhi
  rw [commandWord_getLsbD]
  split_ifs with h4 h8 h16
  · simp [opField, h4]
  · simpa [show k - 4 < 4 by omega, show 4 + (k - 4) = k by omega] using hmidBit.symm
  · simp [sensorField, show k - 8 < 8 by omega, show 8 + (k - 8) = k by omega]
  · simpa [show k - 16 < 16 by omega, show 16 + (k - 16) = k by omega] using hhiBit.symm

/-- The SENSOR field of a canonical word is the one its command is written with. -/
theorem sensorField_of_decode_ok {d : Word} {i : Instr} (hzero : wordSensorZero d = true)
    (h : decode d = .ok i) : sensorField d = i.sensor := by
  have hop := opField_of_decode_ok h
  cases i with
  | nop | clrcnt => simpa [wordSensorZero, hop, Instr.op, Instr.sensor] using hzero
  | read n | select n | capture n | decode n | validate n | level n =>
    simpa [decode, hop, Instr.op, Instr.sensor] using h

theorem wordCanonical_iff (d : Word) : wordCanonical d = true ↔
    (opField d).toNat < 8 ∧ wordIgnoredZero d = true ∧ wordSensorZero d = true := by
  simp [wordCanonical, wordNames, and_assoc]

theorem wordCanonical_encode (i : Instr) : wordCanonical (encode i) = true := by
  obtain ⟨hop, hsensor, hzero⟩ := wordFields i
  refine (wordCanonical_iff _).mpr ⟨?_, hzero, ?_⟩
  · rw [hop]
    exact Nat.lt_succ_of_le (op_toNat_le i)
  · rw [wordSensorZero, hop, hsensor]
    cases i <;> simp [Instr.op, Instr.sensor]

/-- The decoder answers a command exactly below the reserved OPs (30_encoding.md R132, R133). -/
theorem exists_decode_ok_iff (d : Word) : (∃ i, decode d = .ok i) ↔ (opField d).toNat < 8 := by
  constructor
  · rintro ⟨i, hi⟩
    rw [opField_of_decode_ok hi]
    exact Nat.lt_succ_of_le (op_toNat_le i)
  · intro hlt
    cases hd : decode d with
    | ok i => exact ⟨i, rfl⟩
    | error e => exact absurd hlt (Nat.not_lt.mpr (reserved_of_decode_error hd))

theorem encode_of_canonical {d : Word} {i : Instr} (hd : wordCanonical d = true) (h : decode d = .ok i) :
    encode i = d := by
  obtain ⟨-, hignored, hsensor⟩ := (wordCanonical_iff d).mp hd
  rw [encode, ← opField_of_decode_ok h, ← sensorField_of_decode_ok hsensor h, commandWord_fields hignored]

/-- Settles O3: a canonical word names a command, and is the word of its fields, which are the command's. -/
theorem canonicalWordsAreTheEncodings : Obligations.CanonicalWordsAreTheEncodings := by
  refine ⟨fun d => ⟨fun hd => ?_, ?_⟩, fun d i => encode_of_canonical⟩
  · obtain ⟨i, hi⟩ := (exists_decode_ok_iff d).mpr ((wordCanonical_iff d).mp hd).1
    exact ⟨i, encode_of_canonical hd hi⟩
  · rintro ⟨i, rfl⟩
    exact wordCanonical_encode i

theorem decode_of_reserved {d : Word} (h : 8 ≤ (opField d).toNat) :
    decode d = .error (.reservedOp (opField d)) := by
  unfold decode
  split
  case h_9 => rfl
  all_goals omega

/-- Settles O4: the decoder's last case is the reserved OPs, and every other case names a command. -/
theorem reservedOpsNameNoCommand : Obligations.ReservedOpsNameNoCommand :=
  fun d => ⟨⟨decode_of_reserved, reserved_of_decode_error⟩, (exists_decode_ok_iff d).symm⟩

/-- Settles O5: nine words evaluated. -/
theorem tableWordsDecode : Obligations.TableWordsDecode := by
  unfold Obligations.TableWordsDecode
  decide

end Sys2Proof.Machine

/-! One edge (00_scope.md R7): it always answers a next state, runs the command on the port, and moves the timebase
and the synchroniser on; the start of the commands that do not address. -/

namespace Sys2Proof.Machine

/-! ## The step -/

theorem command_of_write {s : State} {a : Addr} {d : Word} {i : Instr} (hbus : s.busOp = .write a d)
    (ha : regAt a = .cmd) (hd : decode d = .ok i) : s.command = some i := by
  simp [State.command, hbus, ha, hd]

/-- An edge whose port carries a command. -/
theorem step_of_command {s : State} {i : Instr} (hrst : s.hostPins.rst = false) (hcmd : s.command = some i) :
    step s = finishEdge s (exec i s) := by
  rw [step, hrst, hcmd]
  rfl

theorem decode_of_decodeTableWord {nbits w : Nat} {i : Instr} (h : decodeTableWord nbits w = some i) :
    decode (tableWord nbits w) = .ok i := by
  unfold decodeTableWord at h
  cases hd : decode (tableWord nbits w) with
  | ok j => rw [hd] at h; exact congrArg Except.ok (Option.some.inj h)
  | error e => rw [hd] at h; cases h

/-- Settles O6: the word on the port is the command of the edge, from the host's pins or placed there. -/
theorem stepRunsTheDecodedCommand : Obligations.StepRunsTheDecodedCommand := by
  refine ⟨fun s a d i hrst hbus ha hd => ?_, fun s nbits w i hw => ?_⟩
  · rw [step_of_command hrst (command_of_write hbus ha hd)]
    rfl
  · have hreg : regAt 0x004 = .cmd := regAt_offset (r := .cmd) rfl
    rw [step_of_command (s := s.withFetchWord nbits w) rfl
      (command_of_write rfl hreg (decode_of_decodeTableWord hw))]
    rfl

theorem exists_step (s : State) : ∃ t, step s = .next t := by
  cases hrst : s.hostPins.rst with
  | true => exact ⟨_, step_of_reset hrst⟩
  | false =>
    obtain ⟨u, -, hstep⟩ := step_next s hrst
    exact ⟨_, hstep⟩

/-- Settles O7: a reset edge answers the reset values, every other edge what the units leave. -/
theorem everyStepAnswersANextState : Obligations.EveryStepAnswersANextState := exists_step

/-! ## The start of CAPTURE, DECODE, VALIDATE and LEVEL (41_commands.md R181) -/

/-- Settles O10: an idle block starts the command and its first wait. -/
theorem captureCommandStarts : Obligations.CaptureCommandStarts := fun _ n hidle => exec_capture n hidle

/-- Settles O11: an idle block starts the command with the evaluation at the next edge. -/
theorem evaluationCommandsStart : Obligations.EvaluationCommandsStart :=
  fun _ n hidle => ⟨exec_decode n hidle, exec_validate n hidle, exec_level n hidle⟩

/-! ## The timebase and the synchroniser at one edge (43_pulse_capture.md R240, R241) -/

theorem step_params {s t : State} (h : step s = .next t) : t.params = s.params := by
  rcases step_cases s t h with ⟨-, rfl⟩ | ⟨-, u, hu, rfl⟩
  · rfl
  · obtain ⟨-, -, -, -, hparams, -⟩ := port_keeps s u hu
    rw [advance_params, phaseStep_params, hparams]

/-- Settles O54: by induction on the edges; a reset edge keeps the parameters too. -/
theorem parametersNeverChange : Obligations.ParametersNeverChange := by
  intro n
  induction n with
  | zero =>
    rintro s t ⟨⟩
    rfl
  | succ n ih =>
    intro s t h
    obtain ⟨u, hu, ht⟩ := runFor_succ_inv h
    rw [ih u t ht, step_params hu]

/-- Without a reset every edge moves the timebase and the synchroniser on, whatever PHASE and the port. -/
theorem step_time {s t : State} (hrst : s.hostPins.rst = false) (h : step s = .next t) :
    t.pre = (if s.pre = s.params.ticksLess1 then 0 else s.pre + 1) ∧
    t.us = (if s.pre = s.params.ticksLess1 then s.us + 1 else s.us) ∧
    t.sync1 = s.rxPin ∧ t.sync2 = s.sync1 ∧ t.rxWave = s.rxWave.tail := by
  rcases step_cases s t h with ⟨hr, -⟩ | ⟨-, u, -, rfl⟩
  · rw [hrst] at hr
    cases hr
  · exact ⟨rfl, rfl, rfl, rfl, rfl⟩

/-- Settles O24: TICKS_PER_US − 1 is the stored parameter. -/
theorem timebaseSteps : Obligations.TimebaseSteps := by
  intro s hrst
  obtain ⟨t, ht⟩ := exists_step s
  obtain ⟨hpre, hus, -⟩ := step_time hrst ht
  exact ⟨t, ht, hpre, hus⟩

/-- A script without a reset for one edge more goes on without one. -/
theorem noResetFor_step {s t : State} {n : Nat} (h : s.noResetFor (n + 1)) (hst : step s = .next t) :
    t.noResetFor n := by
  obtain ⟨u, -, hstep⟩ := step_next s (noResetFor_now s n h)
  cases hst.symm.trans hstep
  exact noResetFor_advance s u n h

/-- Settles O23: each stage takes over the one before it at every edge. -/
theorem synchroniserDelaysTwoEdges : Obligations.SynchroniserDelaysTwoEdges := by
  intro s hreset
  obtain ⟨t, ht⟩ := exists_step s
  obtain ⟨u, hu⟩ := exists_step t
  obtain ⟨-, -, hpin, hstage, -⟩ := step_time (noResetFor_now s 1 hreset) ht
  obtain ⟨-, -, -, hstage', -⟩ := step_time (noResetFor_now t 0 (noResetFor_step hreset ht)) hu
  exact ⟨t, u, ht, hu, hpin, hstage, hstage'.trans hpin⟩

end Sys2Proof.Machine

/-! The level pair as a number (46_level_decoder.md R326, R330, R331): its ranges, and the source's formula. -/

namespace Sys2Proof.Machine

/-! ## The clamp (46_level_decoder.md R326) -/

/-- A clamped pair is 100/1 for a pair above 100 %, or the pair itself. -/
theorem clampPct_cases {a b num den : Nat} (h : clampPct a b = .pct num den) :
    (100 * b < a ∧ num = 100 ∧ den = 1) ∨ (a ≤ 100 * b ∧ num = a ∧ den = b) := by
  unfold clampPct at h
  split at h <;> cases h
  next hover => exact .inl ⟨hover, rfl, rfl⟩
  next hfits => exact .inr ⟨Nat.not_lt.mp hfits, rfl, rfl⟩

theorem clampPct_ratio {a b num den : Nat} (hb : 0 < b) (h : clampPct a b = .pct num den) :
    (num : ℚ) / den = min 100 ((a : ℚ) / b) := by
  have hb' : (0 : ℚ) < b := Nat.cast_pos.mpr hb
  rcases clampPct_cases h with ⟨hover, rfl, rfl⟩ | ⟨hfits, rfl, rfl⟩
  · have hle : (100 : ℚ) ≤ a / b := by
      rw [le_div_iff₀ hb']
      exact_mod_cast hover.le
    simp [min_eq_left hle]
  · have hle : (num : ℚ) / den ≤ 100 := by
      rw [div_le_iff₀ hb']
      exact_mod_cast hfits
    rw [min_eq_right hle]

/-- The uncalibrated branch: no segment after the level segment, only zeros after it, or a mean to divide by. -/
theorem uncalibratedLevel_cases (n : Nat) (x : Byte) (after : List Byte) :
    (after.length = 0 ∧ uncalibratedLevel n x after = clampPct (100 * x.toNat) (255 * n)) ∨
    (after.length ≠ 0 ∧ sumBytes after = 0 ∧ uncalibratedLevel n x after = .levelFault) ∨
    (after.length ≠ 0 ∧ 0 < sumBytes after ∧ uncalibratedLevel n x after =
      clampPct (100 * after.length * (x.toNat + sumBytes after)) (sumBytes after * n)) := by
  unfold uncalibratedLevel
  split_ifs with hlen hsum
  · exact .inl ⟨hlen, rfl⟩
  · exact .inr (.inl ⟨hlen, hsum, rfl⟩)
  · exact .inr (.inr ⟨hlen, Nat.pos_of_ne_zero hsum, rfl⟩)

/-! ## The ranges (46_level_decoder.md R330) -/

theorem uncalibratedLevel_bounds {n num den : Nat} {x : Byte} {after : List Byte} (hn : n ≤ 10)
    (hafter : after.length + 1 ≤ n) (h : uncalibratedLevel n x after = .pct num den) :
    1 ≤ den ∧ num ≤ 2295000 ∧ den ≤ 22950 ∧ num ≤ 100 * den := by
  have hx := x.isLt
  have hsum := sumBytes_le after
  rcases uncalibratedLevel_cases n x after with ⟨-, hl⟩ | ⟨-, -, hl⟩ | ⟨-, hpos, hl⟩ <;> rw [hl] at h
  · rcases clampPct_cases h with ⟨-, rfl, rfl⟩ | ⟨hfits, rfl, rfl⟩ <;> omega
  · cases h
  · have hden : 1 ≤ sumBytes after * n := Nat.mul_pos hpos (by omega)
    have hden' : sumBytes after * n ≤ 2295 * 10 := Nat.mul_le_mul (by omega) hn
    have hnum : after.length * (x.toNat + sumBytes after) ≤ 9 * 2550 := Nat.mul_le_mul (by omega) (by omega)
    rcases clampPct_cases h with ⟨-, rfl, rfl⟩ | ⟨hfits, rfl, rfl⟩
    · omega
    · exact ⟨hden, by rw [Nat.mul_assoc]; omega, hden', hfits⟩

theorem calibratedLevel_bounds {seg : List Byte} {ref : BitVec 16} {num den : Nat} (hlen : seg.length ≤ 10)
    (h : calibratedLevel seg ref = .pct num den) : 1 ≤ den ∧ num ≤ 255000 ∧ den ≤ 65535 := by
  have hsum := sumBytes_le seg
  have href := ref.isLt
  unfold calibratedLevel at h
  split at h <;> cases h
  omega

/-- Settles O41: the bounds of the two branches; with no non-zero segment the pair is 0/1. -/
theorem levelPairsFitTheirRegisters : Obligations.LevelPairsFitTheirRegisters := by
  intro seg cal num den hlen h
  rcases level_cases seg cal with ⟨-, hl⟩ | ⟨x, after, hdrop, ⟨ref, rfl, hl⟩ | ⟨rfl, hl⟩⟩ <;> rw [hl] at h
  · cases h
    simp
  · obtain ⟨hpos, hnum, hden⟩ := calibratedLevel_bounds hlen h
    exact ⟨hpos, by omega, by omega, by simp, fun _ => ⟨hnum, hden⟩⟩
  · have hafter : (x :: after).length ≤ seg.length := by
      rw [← hdrop]
      exact (List.dropWhile_sublist _).length_le
    obtain ⟨hpos, hnum, hden, hpct⟩ := uncalibratedLevel_bounds hlen hafter h
    exact ⟨hpos, by omega, by omega, fun _ => ⟨hnum, hden, hpct⟩, by simp⟩

/-! ## The source's formula (46_level_decoder.md R331) -/

/-- The mean of the `k` segments after the level segment, of sum `a`, or 255 where there is none. -/
def meanAfter (k a : Nat) : ℚ := if k = 0 then 255 else (a : ℚ) / k

theorem uncalibratedLevel_ratio {n num den : Nat} {x : Byte} {after : List Byte} (hn : 0 < n)
    (h : uncalibratedLevel n x after = .pct num den) : (num : ℚ) / den =
      min 100 ((x.toNat / meanAfter after.length (sumBytes after) + after.length) * (100 / n)) := by
  have hn' : (n : ℚ) ≠ 0 := Nat.cast_ne_zero.mpr hn.ne'
  rcases uncalibratedLevel_cases n x after with ⟨hk, hl⟩ | ⟨-, -, hl⟩ | ⟨hk, hpos, hl⟩ <;> rw [hl] at h
  · rw [clampPct_ratio (by omega) h, meanAfter, if_pos hk, hk]
    congr 1
    push_cast
    field_simp
    ring
  · cases h
  · have hk' : (after.length : ℚ) ≠ 0 := Nat.cast_ne_zero.mpr hk
    have hsum : (sumBytes after : ℚ) ≠ 0 := Nat.cast_ne_zero.mpr hpos.ne'
    rw [clampPct_ratio (Nat.mul_pos hpos hn) h, meanAfter, if_neg hk]
    congr 1
    push_cast
    field_simp

/-- Settles O42: the pair before the clamp is the formula, for both values of the mean. -/
theorem uncalibratedLevelIsTheSourceFormula : Obligations.UncalibratedLevelIsTheSourceFormula := by
  rintro seg ls x k num den avg hx hne hzero rfl rfl h
  obtain ⟨hlt, -⟩ := List.getElem?_eq_some_iff.mp hx
  have hk : (seg.drop (ls + 1)).length = seg.length - 1 - ls := by rw [List.length_drop]; omega
  rw [level_none_of_dropWhile (dropWhile_zero_of_first hx hne hzero)] at h
  rw [uncalibratedLevel_ratio (by omega) h, hk, meanAfter, sumBytes]

end Sys2Proof.Machine

/-! Framing (45_frame_validator.md R293, R298, R299): where a frame's segments end, what a sender's frame validates
to, and which corruptions the validator sees. -/

namespace Sys2Proof.Machine

/-! ## base_seg (45_frame_validator.md R293) -/

/-- The scan from `n` stops at the last index in 2..n whose byte is not 0xFF, or below 2. -/
theorem trimFrom_spec (b : Vector Byte 12) (n : Nat) :
    (∀ i, trimFrom b n < i → i ≤ n → frameByte b i = 0xFF) ∧
    (2 ≤ trimFrom b n → frameByte b (trimFrom b n) ≠ 0xFF) := by
  induction n with
  | zero => exact ⟨fun i hlt hle => absurd hle (Nat.not_le.mpr hlt), fun h => absurd h (by simp [trimFrom])⟩
  | succ n ih =>
    rw [trimFrom_succ]
    split
    next hskip =>
      obtain ⟨habove, hown⟩ := ih
      refine ⟨fun i hlt hle => ?_, hown⟩
      rcases Nat.le_succ_iff.mp hle with hle | rfl
      · exact habove i hlt hle
      · exact hskip.2
    next hstop =>
      exact ⟨fun i hlt hle => absurd hle (Nat.not_le.mpr hlt), fun h2 hff => hstop ⟨h2, hff⟩⟩

theorem frameByte_of_baseSeg_lt {b : Vector Byte 12} {i : Nat} (h : baseSeg b < i) (hi : i ≤ 11) :
    frameByte b i = 0xFF :=
  (trimFrom_spec b 11).1 i h hi

theorem frameByte_baseSeg_ne {b : Vector Byte 12} (h : 2 ≤ baseSeg b) : frameByte b (baseSeg b) ≠ 0xFF :=
  (trimFrom_spec b 11).2 h

/-- Settles O34: the scan starts at the last slot. -/
theorem baseSegIsTheLastPopulatedSlot : Obligations.BaseSegIsTheLastPopulatedSlot := by
  refine fun b => ⟨baseSeg_pos b, baseSeg_le b, fun i hi => ?_, fun i hi h2 => ?_⟩
  · rw [Fin.getElem_fin, ← frameByte_of_lt b i.isLt]
    exact frameByte_of_baseSeg_lt hi (by omega)
  · rw [Fin.getElem_fin, ← frameByte_of_lt b i.isLt, hi]
    exact frameByte_baseSeg_ne (hi ▸ h2)

/-- The last populated slot is the only one with nothing populated above it. -/
theorem baseSeg_eq {b : Vector Byte 12} {m : Nat} (h1 : 1 ≤ m) (h11 : m ≤ 11)
    (habove : ∀ i, m < i → i ≤ 11 → frameByte b i = 0xFF) (hown : 2 ≤ m → frameByte b m ≠ 0xFF) :
    baseSeg b = m := by
  have hpos := baseSeg_pos b
  have hle := baseSeg_le b
  rcases Nat.lt_trichotomy (baseSeg b) m with hlt | heq | hgt
  · exact absurd (frameByte_of_baseSeg_lt hlt h11) (hown (by omega))
  · exact heq
  · exact absurd (habove _ hgt hle) (frameByte_baseSeg_ne (by omega))

/-! ## A sender's frame (45_frame_validator.md R298)

The receiver's trim drops every 0xFF at the end of the segments, so the lemmas are about a segment array with `k`
of them after it: `k = 0` is the round trip, `k ≥ 1` the real readings of R299. -/

theorem frameByte_framed_zero (lo : BitVec 4) (seg : List Byte) :
    frameByte (framed lo seg) 0 = (0x9 : BitVec 4) ++ lo := rfl

theorem frameByte_framed_one (lo : BitVec 4) (seg : List Byte) :
    frameByte (framed lo seg) 1 = BitVec.ofInt 8 ((sumBytes seg : Int) - 2) := rfl

theorem frameByte_framed_slot (lo : BitVec 4) (seg : List Byte) {j : Nat} (h : 2 + j < 12) :
    frameByte (framed lo seg) (2 + j) = seg.getD j 0xFF := by
  rw [frameByte_of_lt _ h, framed, Vector.getElem_ofFn, if_neg (by dsimp only; omega), if_neg (by dsimp only; omega)]
  simp

theorem getD_append_sentinels (seg : List Byte) (k j : Nat) :
    (seg ++ List.replicate k 0xFF).getD j 0xFF = seg.getD j 0xFF := by
  simp only [List.getD_eq_getElem?_getD, List.getElem?_append, List.getElem?_replicate]
  split_ifs with h
  · rfl
  · simp [List.getElem?_eq_none (Nat.not_lt.mp h)]
  · simp [List.getElem?_eq_none (Nat.not_lt.mp h)]

theorem highNibble_append (h lo : BitVec 4) : (h ++ lo).extractLsb' 4 4 = h := by
  apply BitVec.eq_of_getLsbD_eq
  intro k hk
  rw [BitVec.getLsbD_extractLsb', BitVec.getLsbD_append]
  simp [hk]

theorem preambleNibble_framed (lo : BitVec 4) (seg : List Byte) : preambleNibble (framed lo seg) = 9 := by
  rw [preambleNibble, frameByte_framed_zero, highNibble_append]

section Sentinels

variable {lo : BitVec 4} {seg : List Byte} {k : Nat}

theorem baseSeg_framed (hlen : seg.length ≤ 10) (hlast : seg.getLast? ≠ some 0xFF) :
    baseSeg (framed lo (seg ++ List.replicate k 0xFF)) = seg.length + 1 := by
  refine baseSeg_eq (by omega) (by omega) (fun i hlt hle => ?_) fun h2 => ?_
  · obtain ⟨j, rfl⟩ := Nat.exists_eq_add_of_le (show 2 ≤ i by omega)
    rw [frameByte_framed_slot lo _ (by omega), getD_append_sentinels, List.getD_eq_getElem?_getD,
      List.getElem?_eq_none (by omega), Option.getD_none]
  · rw [show seg.length + 1 = 2 + (seg.length - 1) by omega, frameByte_framed_slot lo _ (by omega),
      getD_append_sentinels, List.getD_eq_getElem?_getD, List.getElem?_eq_getElem (by omega), Option.getD_some]
    rw [List.getLast?_eq_getElem?, List.getElem?_eq_getElem (by omega)] at hlast
    exact fun h => hlast (congrArg some h)

/-- The receiver's segments are the sender's without the 0xFF at their end. -/
theorem rawSegments_framed (hlen : seg.length ≤ 10) (hlast : seg.getLast? ≠ some 0xFF) :
    rawSegments (framed lo (seg ++ List.replicate k 0xFF)) = seg := by
  have hbase := baseSeg_framed (lo := lo) (k := k) hlen hlast
  have hlength : (rawSegments (framed lo (seg ++ List.replicate k 0xFF))).length = seg.length := by
    rw [rawSegments_length, hbase, Nat.add_sub_cancel]
  refine List.ext_getElem hlength fun j _ hj => ?_
  simp only [rawSegments, List.getElem_map, List.getElem_range]
  rw [frameByte_framed_slot lo _ (by omega), getD_append_sentinels, List.getD_eq_getElem?_getD,
    List.getElem?_eq_getElem hj, Option.getD_some]

/-- The checksum the receiver computes leaves the 0xFF readings out. -/
theorem checksum_framed (hlen : seg.length ≤ 10) (hlast : seg.getLast? ≠ some 0xFF) :
    checksum (framed lo (seg ++ List.replicate k 0xFF)) = BitVec.ofInt 8 ((sumBytes seg : Int) - 2) := by
  rw [checksum, rawSegments_framed hlen hlast]

end Sentinels

theorem quirk_of_zero_zero {seg : List Byte} (h1 : seg[1]? = some 0) (h0 : seg[0]? = some 0) : quirk seg = seg := by
  match seg, h1, h0 with
  | [_], h1, _ => cases h1
  | x :: y :: rest, _, h0 =>
    obtain rfl : x = 0 := by simpa using h0
    simp [quirk]

/-- Settles O36: with no 0xFF after them, the checksum is the sender's and the segments are the sender's, and the
quirk leaves them. -/
theorem framedSegmentsValidateToThemselves : Obligations.FramedSegmentsValidateToThemselves := by
  intro lo seg hlen hlast hquirk
  have hchecksum := checksum_framed (lo := lo) (k := 0) hlen hlast
  have hsegments := rawSegments_framed (lo := lo) (k := 0) hlen hlast
  rw [List.replicate_zero, List.append_nil] at hchecksum hsegments
  rw [validate_full, if_neg (not_not.mpr (preambleNibble_framed lo seg)),
    if_neg (not_not.mpr (hchecksum.trans (frameByte_framed_one lo seg).symm)), hsegments]
  by_cases hzero : seg[1]? = some 0
  · rw [quirk_of_zero_zero hzero (hquirk hzero)]
  · rw [quirk_of_ne hzero]

theorem sumBytes_append_sentinels (seg : List Byte) (k : Nat) :
    sumBytes (seg ++ List.replicate k 0xFF) = sumBytes seg + 255 * k := by
  simp [sumBytes, Nat.mul_comm]

/-- Settles O38: the sender counts the `k` readings of 255 and the receiver none, and 255·k is no multiple of 256
for k ≤ 10. -/
theorem realSentinelReadingsFailTheChecksum : Obligations.RealSentinelReadingsFailTheChecksum := by
  intro lo seg k hk hlen hlast
  have hdiffer : BitVec.ofInt 8 ((sumBytes seg : Int) - 2) ≠
      BitVec.ofInt 8 ((sumBytes (seg ++ List.replicate k 0xFF) : Int) - 2) := by
    intro h
    have hnat := congrArg BitVec.toNat h
    rw [sumBytes_append_sentinels, BitVec.toNat_ofInt, BitVec.toNat_ofInt] at hnat
    omega
  rw [validate_full, if_neg (not_not.mpr (preambleNibble_framed lo _)), if_pos]
  rwa [checksum_framed (by omega) hlast, frameByte_framed_one]

/-! ## Corruption (45_frame_validator.md R292, R298) -/

theorem frameByte_set_of_ne (b : Vector Byte 12) (x : Byte) {i j : Nat} (hi : i < 12) (h : i ≠ j) :
    frameByte (b.set i x) j = frameByte b j := by
  rw [frameByte, frameByte, Vector.getElem?_set_ne hi h]

theorem trimFrom_congr {b b' : Vector Byte 12} (h : ∀ i, 2 ≤ i → frameByte b' i = frameByte b i) (n : Nat) :
    trimFrom b' n = trimFrom b n := by
  induction n with
  | zero => rfl
  | succ n ih =>
    rw [trimFrom_succ, trimFrom_succ, ih]
    by_cases h2 : 2 ≤ n + 1
    · rw [h _ h2]
    · simp [h2]

/-- The checksum reads the slots from 2 on only. -/
theorem checksum_congr {b b' : Vector Byte 12} (h : ∀ i, 2 ≤ i → frameByte b' i = frameByte b i) :
    checksum b' = checksum b := by
  have hbase : baseSeg b' = baseSeg b := trimFrom_congr h 11
  have hsegments : rawSegments b' = rawSegments b := by
    rw [rawSegments, rawSegments, hbase]
    exact List.map_congr_left fun j _ => h (2 + j) (by omega)
  rw [checksum, checksum, hsegments]

/-- A whole frame validates to segments when its preamble and its checksum hold. -/
theorem preamble_and_checksum_of_segs {b : Vector Byte 12} {seg : List Byte}
    (h : validate (.bytes b 12) = .segs seg) : preambleNibble b = 9 ∧ checksum b = frameByte b 1 := by
  rw [validate_full] at h
  split_ifs at h with hpre hsum
  exact ⟨not_not.mp hpre, not_not.mp hsum⟩

/-- One flipped bit is a different byte. -/
theorem flip_ne (x : Byte) (k : Fin 8) : x ^^^ (1#8 <<< k.val) ≠ x := by
  have hbit : ∀ k : Fin 8, 1#8 <<< k.val ≠ 0 := by decide
  intro h
  exact hbit k (xor_left_eq_self_iff.mp h)

/-- Settles O37: byte 1 is the one slot the checksum is compared with and does not read; the preamble is tested
before it. -/
theorem corruptedFramesAreDetected : Obligations.CorruptedFramesAreDetected := by
  refine ⟨fun b seg k hvalid => ?_, fun b h lo hne => ?_⟩
  · obtain ⟨hpre, hsum⟩ := preamble_and_checksum_of_segs hvalid
    rw [frameByte_of_lt b (by omega)] at hsum
    have hpre' : preambleNibble (b.set 1 (b[1] ^^^ (1#8 <<< k.val))) = 9 := by
      rw [preambleNibble, frameByte_set_of_ne b _ (by omega) (by omega)]
      exact hpre
    have hsum' : checksum (b.set 1 (b[1] ^^^ (1#8 <<< k.val))) = b[1] :=
      (checksum_congr fun i hi => frameByte_set_of_ne b _ (by omega) (by omega)).trans hsum
    rw [validate_full, if_neg (not_not.mpr hpre'), hsum', frameByte_of_lt _ (by omega), Vector.getElem_set_self,
      if_pos (flip_ne _ k).symm]
  · have hpre : preambleNibble (b.set 0 (h ++ lo)) = h := by
      rw [preambleNibble, frameByte_of_lt _ (by omega), Vector.getElem_set_self, highNibble_append]
    rw [validate_full, hpre, if_pos hne]

end Sys2Proof.Machine

/-! The invariant of reachable states (10_state.md R38, R44, R54, R63, R66; 43_pulse_capture.md R245): the reset state
has it, and the port operation, the units and the timebase keep it. -/

namespace Sys2Proof.Machine

/-! ## Reset (70_reset_and_hazards.md R410, R411) -/

theorem resetWith_inv (p : Params) : (State.resetWith p).inv := by
  simp [State.inv, State.busyMatchesPhase, State.resetWith, ticksPerUs_pos]

/-- Settles O52: the reset state is sound for every choice of the OPEN parameters. -/
theorem resetStateIsSound : Obligations.ResetStateIsSound := resetWith_inv Config.openParams

/-- Settles O51: a reset edge leaves the reset state of the parameters it had, but for the model's own fields. -/
theorem resetEdgeLoadsTheResetValues : Obligations.ResetEdgeLoadsTheResetValues :=
  fun s hrst => ⟨resetEdge s, step_of_reset hrst, resetWith_atReset s.params, rfl⟩

/-! ## The invariant by parts -/

theorem inv_phase_idle {s : State} (hinv : s.inv) (hbusy : s.busy = false) : s.phase = .idle := by
  by_contra hrun
  rw [hinv.1.mpr hrun] at hbusy
  cases hbusy

/-- The fields the invariant bounds whatever the phase. -/
def State.SameBounds (u s : State) : Prop :=
  u.pre = s.pre ∧ u.params = s.params ∧ u.segCount = s.segCount ∧ u.levelDen = s.levelDen

/-- A running command in a sound phase. -/
theorem inv_of_running {s u : State} (hinv : s.inv) (hsame : u.SameBounds s) (hbusy : u.busy = true)
    (hdone : u.done = false) (hphase : u.phase ≠ .idle) (hsel : u.selectSound) (hcap : u.captureSound)
    (heval : u.evalSound) : u.inv := by
  obtain ⟨-, -, hpre, hseg, hden, -⟩ := hinv
  obtain ⟨hp, hq, hs, hd⟩ := hsame
  refine ⟨by simp [State.busyMatchesPhase, hbusy, hphase], fun _ => hdone, ?_, ?_, ?_, hsel, hcap, heval⟩
  · rwa [State.prescalerInRange, hp, hq]
  · rwa [State.segCountLegal, hs]
  · rwa [State.levelDenNonzero, hd]

/-- An idle block. -/
theorem inv_of_idle {u : State} (hbusy : u.busy = false) (hphase : u.phase = .idle) (hpre : u.prescalerInRange)
    (hseg : u.segCountLegal) (hden : u.levelDenNonzero) : u.inv :=
  ⟨by simp [State.busyMatchesPhase, hbusy, hphase], by simp [hbusy], hpre, hseg, hden, by simp [hphase],
    by simp [hphase], by simp [hphase]⟩

/-! ## The port operation -/

theorem store_segCountLegal {s : State} (h : s.segCountLegal) (r : Reg) (d : Word) : (store r d s).segCountLegal := by
  cases r
  case segCount => simp [State.segCountLegal, store]
  all_goals exact h

/-- A store while idle: of the fields it writes the invariant bounds SEG_COUNT only. -/
theorem store_inv {s : State} (hinv : s.inv) (hidle : s.busy = false) (r : Reg) (d : Word) : (store r d s).inv := by
  have hphase := inv_phase_idle hinv hidle
  obtain ⟨-, -, hpre, hseg, hden, -⟩ := hinv
  have hlegal := store_segCountLegal hseg r d
  refine inv_of_idle ?_ ?_ ?_ hlegal ?_ <;> rw [store_frame]
  · exact hidle
  · exact hphase
  · exact hpre
  · exact hden

theorem hostWrite_inv {s : State} (hinv : s.inv) (r : Reg) (d : Word) : (hostWrite r d s).inv := by
  rcases hostWrite_cases r d s with ⟨-, -, h⟩ | ⟨-, hidle, h⟩ | ⟨-, h⟩ | ⟨-, -, h⟩ <;> rw [h]
  · exact hinv
  · exact store_inv hinv hidle r d
  · obtain ⟨hbusy, hdone, hrest⟩ := hinv
    exact ⟨hbusy, fun hb => by simp [hdone hb], hrest⟩
  · exact hinv

/-- A command either leaves the state but for IGN and the counters, or starts in a sound first phase. -/
theorem exec_inv {i : Instr} {s u : State} (hinv : s.inv) (h : exec i s = .next u) : u.inv := by
  have hpulses (n : Sensor) : 1 ≤ (pulseCount n).toNat ∧ (pulseCount n).toNat ≤ 256 := by
    have := n.isLt
    rw [pulseCount_toNat]
    omega
  rcases exec_cases i s u h with ⟨-, rfl⟩ | ⟨-, -, rfl⟩ | ⟨-, ⟨n, -, rfl⟩ | ⟨n, -, rfl⟩ | ⟨n, -, rfl⟩ | ⟨n, -, rfl⟩ |
    ⟨n, -, rfl⟩ | ⟨n, -, rfl⟩ | ⟨-, rfl⟩⟩
  case inl | inr.inl | inr.inr.inr.inr.inr.inr.inr.inr => exact hinv
  case inr.inr.inl | inr.inr.inr.inl =>
    exact inv_of_running hinv ⟨rfl, rfl, rfl, rfl⟩ rfl rfl (by simp) (fun _ => ⟨hpulses n, by simp⟩) (by simp) (by simp)
  all_goals exact inv_of_running hinv ⟨rfl, rfl, rfl, rfl⟩ rfl rfl (by simp) (by simp) (by simp) (by simp)

theorem port_inv {s u : State} (hinv : s.inv) (hu : PortLeaves s u) : u.inv := by
  rcases hu with ⟨i, -, he⟩ | ⟨-, rfl⟩
  · exact exec_inv hinv he
  · rcases portEffect_cases s with h | h | ⟨a, d, -, h⟩ <;> rw [h]
    · exact hinv
    · exact hinv
    · exact hostWrite_inv hinv _ _

/-! ## The units -/

/-- What a unit reads of the pre-edge state `s` and the invariant speaks of, unchanged in `t` by the port. -/
def State.SameCommand (t s : State) : Prop :=
  t.phase = s.phase ∧ t.curOp = s.curOp ∧ t.selRemain = s.selRemain ∧ t.durCount = s.durCount

theorem sameCommand_of_busy {s u : State} (hbusy : s.busy = true) (hu : PortLeaves s u) : u.SameCommand s := by
  rw [port_busy s u hbusy hu]
  exact ⟨rfl, rfl, rfl, rfl⟩

section Units

variable {s t : State}

/-- A unit's step from one phase of a running command to another. -/
theorem inv_of_next_phase {u : State} (ht : t.inv) (hrun : t.phase ≠ .idle) (hsame : u.SameBounds t)
    (hbusy : u.busy = t.busy) (hdone : u.done = t.done) (hphase : u.phase ≠ .idle) (hsel : u.selectSound)
    (hcap : u.captureSound) (heval : u.evalSound) : u.inv := by
  obtain ⟨hb, hd, -⟩ := id ht
  have hrunning : t.busy = true := hb.mpr hrun
  exact inv_of_running ht hsame (hbusy.trans hrunning) (hdone.trans (hd hrunning)) hphase hsel hcap heval

theorem beginEval_inv (ht : t.inv) (hrun : t.phase ≠ .idle) (hop : t.curOp = opRead ∨ t.curOp = opCapture) :
    (beginEval t).inv := by
  refine inv_of_next_phase ht hrun ⟨rfl, rfl, rfl, rfl⟩ rfl rfl (by simp) (by simp) (by simp) fun _ => ?_
  rcases hop with hop | hop <;> simp [hop]

theorem selOffStep_inv (ht : t.inv) (hphase : t.phase = .selOff) : (selOffStep s t).inv := by
  obtain ⟨-, -, -, -, -, hsel, -⟩ := id ht
  rcases selOffStep_cases s t with ⟨-, h⟩ | ⟨-, h⟩ <;> rw [h]
  · exact inv_of_next_phase ht (by simp [hphase]) ⟨rfl, rfl, rfl, rfl⟩ rfl rfl (by simp)
      (fun _ => hsel (.inl hphase)) (by simp) (by simp)
  · exact ht

/-- The end of the last pulse begins a READ's capture with no duration, or ends a SELECT. -/
theorem selectDone_inv (ht : t.inv) (hphase : t.phase = .selOn) (hop : t.curOp = s.curOp) :
    (selectDone s t).inv := by
  obtain ⟨-, -, hpre, hseg, hden, hsel, -⟩ := id ht
  rcases selectDone_cases s t with ⟨hread, h⟩ | ⟨-, h⟩ | ⟨hread, hselect, -⟩
  · rw [h]
    exact inv_of_next_phase ht (by simp [hphase]) ⟨rfl, rfl, rfl, rfl⟩ rfl rfl (by simp) (by simp)
      (fun _ => ⟨by simp, .inl (hop.trans hread)⟩) (by simp)
  · rw [h]
    exact inv_of_idle rfl rfl hpre hseg hden
  · rw [← hop] at hread hselect
    exact absurd (hsel (.inr hphase)).2 (not_or.mpr ⟨hread, hselect⟩)

theorem selOnStep_inv (ht : t.inv) (hphase : t.phase = .selOn) (hop : t.curOp = s.curOp)
    (hremain : t.selRemain = s.selRemain) : (selOnStep s t).inv := by
  obtain ⟨-, -, -, -, -, hsel, -⟩ := id ht
  obtain ⟨hrange, hops⟩ := hsel (.inr hphase)
  rcases selOnStep_cases s t with ⟨-, hmore, h⟩ | ⟨-, -, h⟩ | ⟨-, h⟩ <;> rw [h]
  · refine inv_of_next_phase ht (by simp [hphase]) ⟨rfl, rfl, rfl, rfl⟩ rfl rfl (by simp) (fun _ => ⟨?_, hops⟩)
      (by simp) (by simp)
    rw [hremain] at hrange
    rw [nextPulse_selRemain]
    bv_omega
  · exact selectDone_inv ht hphase hop
  · exact ht

theorem capHighStep_inv (ht : t.inv) (hphase : t.phase = .capHigh) : (capHighStep s t).inv := by
  obtain ⟨-, -, -, -, -, -, hcap, -⟩ := id ht
  have hrun : t.phase ≠ .idle := by simp [hphase]
  rcases capHighStep_cases s t with ⟨-, h⟩ | ⟨-, -, h⟩ | ⟨-, -, h⟩ <;> rw [h]
  · exact inv_of_next_phase ht hrun ⟨rfl, rfl, rfl, rfl⟩ rfl rfl (by simp) (by simp)
      (fun _ => hcap (.inl hphase)) (by simp)
  · exact beginEval_inv ht hrun (hcap (.inl hphase)).2
  · exact ht

theorem capLowStep_inv (ht : t.inv) (hphase : t.phase = .capLow) (hcount : t.durCount = s.durCount) :
    (capLowStep s t).inv := by
  obtain ⟨-, -, -, -, -, -, hcap, -⟩ := id ht
  obtain ⟨hle, hop⟩ := hcap (.inr hphase)
  have hrun : t.phase ≠ .idle := by simp [hphase]
  rcases capLowStep_cases s t with ⟨-, -, h⟩ | ⟨-, hlast, h⟩ | ⟨-, -, h⟩ | ⟨-, -, h⟩ <;> rw [h]
  · refine inv_of_next_phase ht hrun ⟨rfl, rfl, rfl, rfl⟩ rfl rfl (by simp) (by simp) (by simp) fun _ => ?_
    rcases hop with hop | hop <;> simp [hop]
  · refine inv_of_next_phase ht hrun ⟨rfl, rfl, rfl, rfl⟩ rfl rfl (by simp) (by simp) (fun _ => ⟨?_, hop⟩) (by simp)
    rw [hcount] at hle
    rw [nextWait_durCount, storeDuration_durCount_toNat hle]
    omega
  · exact beginEval_inv ht hrun hop
  · exact ht

end Units

/-! ## The evaluation's commit -/

/-- An evaluation hands on a verdict of at most ten segments and its level. -/
theorem evalCommand_eq_levelOf {op : Opcode} {s : State} {e : EvalResult} (h : evalCommand op s = some e) :
    ∃ fo v cal, e = levelOf fo v cal ∧ ∀ seg, v = .segs seg → seg.length ≤ 10 := by
  simp only [evalCommand] at h
  split_ifs at h <;> cases h
  · exact ⟨_, _, _, rfl, fun _ hv => validate_length hv⟩
  · exact ⟨_, _, _, rfl, fun _ hv => validate_length hv⟩
  · refine ⟨_, _, _, rfl, ?_⟩
    rintro _ ⟨⟩
    exact segments_length_le s

theorem raiseFailure_bounds (op : Opcode) (code : FailCode) (fo : Option Frame) {t : State} (hseg : t.segCountLegal) :
    (raiseFailure op code fo t).segCountLegal ∧ (raiseFailure op code fo t).levelDenNonzero := by
  have hcount : (countFailure code (setResult code.result
      (if op = opLevel then commitFrame fo t else dropSegments (commitFrame fo t)))).segCount.toNat ≤ 10 := by
    rw [commitFrame_eq]
    split <;> cases code <;> simp [countFailure, hseg]
  exact ⟨hcount, by simp [raiseFailure, State.levelDenNonzero]⟩

theorem commitLevel_levelDenNonzero {seg : List Byte} (hlen : seg.length ≤ 10) (cal : Option (BitVec 16)) (t : State) :
    (commitLevel (level seg cal) t).levelDenNonzero := by
  cases hl : level seg cal with
  | levelFault => simp [commitLevel, State.levelDenNonzero]
  | pct num den =>
    obtain ⟨hpos, -, hlt, -⟩ := levelPairsFitTheirRegisters seg cal num den hlen hl
    rw [commitLevel, State.levelDenNonzero, writeLevel_levelDen, ne_eq, ← BitVec.toNat_inj, BitVec.toNat_ofNat,
      Nat.mod_eq_of_lt hlt]
    exact Nat.ne_of_gt hpos

theorem commit_bounds {op : Opcode} {s t : State} {e : EvalResult} (he : evalCommand op s = some e)
    (hseg : t.segCountLegal) : (commit op e t).segCountLegal ∧ (commit op e t).levelDenNonzero := by
  obtain ⟨fo, v, cal, rfl, hlen⟩ := evalCommand_eq_levelOf he
  cases v with
  | fail code => exact raiseFailure_bounds op code fo hseg
  | segs seg =>
    have hle := hlen seg rfl
    refine ⟨?_, commitLevel_levelDenNonzero hle cal _⟩
    have hsegs : (commitSegs op seg (commitFrame fo t)).segCount.toNat ≤ 10 := by
      rw [commitFrame_eq, commitSegs]
      split
      · rw [writeSegments_segCount, BitVec.toNat_ofNat]
        omega
      · exact hseg
    simp only [levelOf, commit, State.segCountLegal]
    cases level seg cal <;> exact hsegs

theorem evalStep_inv {s t : State} (ht : t.inv) : (evalStep s t).inv := by
  obtain ⟨-, -, hpre, hseg, hden, -⟩ := ht
  rcases evalStep_cases s t with ⟨e, he, h⟩ | ⟨-, h⟩ <;> rw [h]
  · obtain ⟨hseg', hden'⟩ := commit_bounds he hseg
    refine inv_of_idle rfl rfl ?_ hseg' hden'
    rw [commit_frame]
    exact hpre
  · exact inv_of_idle rfl rfl hpre hseg hden

/-! ## The edge -/

theorem phaseStep_inv {s t : State} (ht : t.inv) (hsame : s.phase ≠ .idle → t.SameCommand s) :
    (phaseStep s t).inv := by
  by_cases hrun : s.phase = .idle
  · rwa [phaseStep_idle _ _ hrun]
  obtain ⟨hp, hop, hremain, hcount⟩ := hsame hrun
  cases hphase : s.phase with rw [hphase] at hp
  | idle => exact absurd hphase hrun
  | selOff => rw [phaseStep_selOff _ _ hphase]; exact selOffStep_inv ht hp
  | selOn => rw [phaseStep_selOn _ _ hphase]; exact selOnStep_inv ht hp hop hremain
  | capHigh => rw [phaseStep_capHigh _ _ hphase]; exact capHighStep_inv ht hp
  | capLow => rw [phaseStep_capLow _ _ hphase]; exact capLowStep_inv ht hp hcount
  | eval => rw [phaseStep_eval _ _ hphase]; exact evalStep_inv ht

/-- The timebase keeps PRE in range, and nothing else of what every edge moves on is bounded. -/
theorem advance_inv {s u : State} (hpre : s.prescalerInRange) (hparams : u.params = s.params)
    (h : (phaseStep s u).inv) : (advance s u).inv := by
  obtain ⟨hbusy, hdone, -, hrest⟩ := h
  refine ⟨hbusy, hdone, ?_, hrest⟩
  rw [State.prescalerInRange, advance_pre, advance_params, phaseStep_params, hparams]
  rw [State.prescalerInRange, Params.ticksPerUs] at hpre
  rw [Params.ticksPerUs]
  split <;> omega

theorem step_inv {s t : State} (hinv : s.inv) (h : step s = .next t) : t.inv := by
  rcases step_cases s t h with ⟨-, rfl⟩ | ⟨-, u, hu, rfl⟩
  · exact resetWith_inv s.params
  · obtain ⟨-, -, -, -, hparams, -⟩ := port_keeps s u hu
    obtain ⟨hbusy, -, hpre, -⟩ := id hinv
    exact advance_inv hpre hparams
      (phaseStep_inv (port_inv hinv hu) fun hrun => sameCommand_of_busy (hbusy.mpr hrun) hu)

/-- Settles O53: a reset edge leaves the reset state, and on every other edge the port, the units and the timebase
keep the invariant one after the other. -/
theorem stepKeepsTheInvariant : Obligations.StepKeepsTheInvariant := fun _ _ => step_inv

end Sys2Proof.Machine

/-! Rules of the whole machine: which events change a counter, TX, the configuration, a result register and IRQ, and
the evaluation that ends a capture. -/

namespace Sys2Proof.Machine

/-! ## What the port can change -/

theorem store_of_ne_ctrl {r : Reg} (h : r ≠ .ctrl) (d : Word) (s : State) :
    (store r d s).tx = s.tx ∧ (store r d s).ie = s.ie := by
  cases r
  case ctrl => exact absurd rfl h
  all_goals exact ⟨rfl, rfl⟩

/-- The port leaves CTRL.TX and CTRL.IE but for a write to CTRL while idle, and a start of READ or SELECT, which
clears TX. -/
theorem port_ctrl_cases {s u : State} (hu : PortLeaves s u) :
    (s.busy = false ∧ ∃ a d, s.busOp = .write a d ∧ regAt a = .ctrl ∧ u.ie = d.getLsbD 1) ∨
    (u.ie = s.ie ∧ (u.tx = s.tx ∨
      (s.busy = false ∧ ∃ n, s.command = some (.read n) ∨ s.command = some (.select n)))) := by
  rcases hu with ⟨i, hcmd, he⟩ | ⟨-, rfl⟩
  · rcases exec_cases i s u he with ⟨-, rfl⟩ | ⟨-, -, rfl⟩ | ⟨hidle, ⟨n, rfl, rfl⟩ | ⟨n, rfl, rfl⟩ | ⟨n, -, rfl⟩ |
      ⟨n, -, rfl⟩ | ⟨n, -, rfl⟩ | ⟨n, -, rfl⟩ | ⟨-, rfl⟩⟩
    case inr.inr.inl => exact .inr ⟨rfl, .inr ⟨hidle, n, .inl hcmd⟩⟩
    case inr.inr.inr.inl => exact .inr ⟨rfl, .inr ⟨hidle, n, .inr hcmd⟩⟩
    all_goals exact .inr ⟨rfl, .inl rfl⟩
  · rcases portEffect_cases s with h | h | ⟨a, d, hbus, h⟩ <;> rw [h]
    · exact .inr ⟨rfl, .inl rfl⟩
    · exact .inr ⟨rfl, .inl rfl⟩
    · rcases hostWrite_cases (regAt a) d s with ⟨-, -, hw⟩ | ⟨-, hidle, hw⟩ | ⟨-, hw⟩ | ⟨-, -, hw⟩ <;> rw [hw]
      · exact .inr ⟨rfl, .inl rfl⟩
      · by_cases hctrl : regAt a = .ctrl
        · exact .inl ⟨hidle, a, d, hbus, hctrl, by rw [hctrl]; rfl⟩
        · obtain ⟨htx, hie⟩ := store_of_ne_ctrl hctrl d s
          exact .inr ⟨hie, .inl htx⟩
      · exact .inr ⟨rfl, .inl rfl⟩
      · exact .inr ⟨rfl, .inl rfl⟩

/-- The port never sets DONE. -/
theorem done_of_port {s u : State} (hu : PortLeaves s u) (h : u.done = true) : s.done = true := by
  rcases hu with ⟨i, -, he⟩ | ⟨-, rfl⟩
  · rcases exec_cases i s u he with ⟨-, rfl⟩ | ⟨-, -, rfl⟩ | ⟨-, ⟨n, -, rfl⟩ | ⟨n, -, rfl⟩ | ⟨n, -, rfl⟩ | ⟨n, -, rfl⟩ |
      ⟨n, -, rfl⟩ | ⟨n, -, rfl⟩ | ⟨-, rfl⟩⟩
    case inl | inr.inl | inr.inr.inr.inr.inr.inr.inr.inr => exact h
    all_goals cases h
  · rcases portEffect_cases s with hp | hp | ⟨a, d, -, hp⟩ <;> rw [hp] at h
    · exact h
    · exact h
    · rcases hostWrite_cases (regAt a) d s with ⟨-, -, hw⟩ | ⟨-, -, hw⟩ | ⟨-, hw⟩ | ⟨-, -, hw⟩ <;> rw [hw] at h
      · exact h
      · rwa [store_frame] at h
      · rw [clearFlags_done, Bool.and_eq_true] at h
        exact h.1
      · exact h

theorem failCount_store (r : Reg) (d : Word) (s : State) (c : FailCode) :
    (store r d s).failCount c = s.failCount c := by
  rw [store_frame]
  cases c <;> rfl

/-- The port changes a counter by CLRCNT while idle only. -/
theorem port_failCount {s u : State} (hu : PortLeaves s u) (c : FailCode) :
    (s.command = some .clrcnt ∧ s.busy = false ∧ u.failCount c = 0) ∨
    (¬ (s.command = some .clrcnt ∧ s.busy = false) ∧ u.failCount c = s.failCount c) := by
  rcases hu with ⟨i, hcmd, he⟩ | ⟨hcmd, rfl⟩ <;> rw [hcmd]
  · rcases exec_cases i s u he with ⟨rfl, rfl⟩ | ⟨-, hbusy, rfl⟩ | ⟨hidle, ⟨n, rfl, rfl⟩ | ⟨n, rfl, rfl⟩ |
      ⟨n, rfl, rfl⟩ | ⟨n, rfl, rfl⟩ | ⟨n, rfl, rfl⟩ | ⟨n, rfl, rfl⟩ | ⟨rfl, rfl⟩⟩
    case inr.inl => exact .inr ⟨by simp [hbusy], by cases c <;> rfl⟩
    case inr.inr.inr.inr.inr.inr.inr.inr => exact .inl ⟨rfl, hidle, by cases c <;> rfl⟩
    all_goals exact .inr ⟨by simp, by cases c <;> rfl⟩
  · refine .inr ⟨by simp, ?_⟩
    rcases portEffect_cases s with h | h | ⟨a, d, -, h⟩ <;> rw [h]
    · cases c <;> rfl
    · rcases hostWrite_cases (regAt a) d s with ⟨-, -, hw⟩ | ⟨-, -, hw⟩ | ⟨-, hw⟩ | ⟨-, -, hw⟩ <;> rw [hw]
      · cases c <;> rfl
      · exact failCount_store _ _ s c
      · cases c <;> rfl

/-! ## What the units can change -/

/-- Outside EVAL a unit writes no result register, but for RESULT at a SELECT's end. -/
theorem phaseStep_results_cases (s t : State) :
    (s.phase ≠ .eval ∧ phaseStep s t = (phaseStep s t).withResultsOf t) ∨
    (s.phase = .selOn ∧ phaseStep s t = (setResult .none (clearRemain t)).endCommand) ∨
    (s.phase = .eval ∧ phaseStep s t = evalStep s t) := by
  cases hphase : s.phase with
  | idle => exact .inl ⟨by simp, by rw [phaseStep_idle _ _ hphase]; rfl⟩
  | selOff =>
    rw [phaseStep_selOff _ _ hphase]
    rcases selOffStep_cases s t with ⟨-, h⟩ | ⟨-, h⟩ <;> rw [h] <;> exact .inl ⟨by simp, rfl⟩
  | selOn =>
    rw [phaseStep_selOn _ _ hphase]
    rcases selOnStep_cases s t with ⟨-, -, h⟩ | ⟨-, -, h⟩ | ⟨-, h⟩ <;> rw [h]
    · exact .inl ⟨by simp, rfl⟩
    · rcases selectDone_cases s t with ⟨-, h'⟩ | ⟨-, h'⟩ | ⟨-, -, h'⟩ <;> rw [h']
      · exact .inl ⟨by simp, rfl⟩
      · exact .inr (.inl ⟨rfl, rfl⟩)
      · exact .inl ⟨by simp, rfl⟩
    · exact .inl ⟨by simp, rfl⟩
  | capHigh =>
    rw [phaseStep_capHigh _ _ hphase]
    rcases capHighStep_cases s t with ⟨-, h⟩ | ⟨-, -, h⟩ | ⟨-, -, h⟩ <;> rw [h] <;> exact .inl ⟨by simp, rfl⟩
  | capLow =>
    rw [phaseStep_capLow _ _ hphase]
    rcases capLowStep_cases s t with ⟨-, -, h⟩ | ⟨-, -, h⟩ | ⟨-, -, h⟩ | ⟨-, -, h⟩ <;> rw [h] <;>
      exact .inl ⟨by simp, rfl⟩
  | eval => exact .inr (.inr ⟨rfl, phaseStep_eval _ _ hphase⟩)

/-- TX is driven in the address phases only. -/
theorem phaseStep_tx {s : State} (t : State) (hoff : s.phase ≠ .selOff) (hon : s.phase ≠ .selOn) :
    (phaseStep s t).tx = t.tx := by
  cases hphase : s.phase with
  | idle => rw [phaseStep_idle _ _ hphase]
  | selOff => exact absurd hphase hoff
  | selOn => exact absurd hphase hon
  | capHigh =>
    rw [phaseStep_capHigh _ _ hphase]
    rcases capHighStep_cases s t with ⟨-, h⟩ | ⟨-, -, h⟩ | ⟨-, -, h⟩ <;> rw [h] <;> rfl
  | capLow =>
    rw [phaseStep_capLow _ _ hphase]
    rcases capLowStep_cases s t with ⟨-, -, h⟩ | ⟨-, -, h⟩ | ⟨-, -, h⟩ | ⟨-, -, h⟩ <;> rw [h] <;> rfl
  | eval =>
    rw [phaseStep_eval _ _ hphase]
    rcases evalStep_cases s t with ⟨e, -, h⟩ | ⟨-, h⟩ <;> rw [h]
    · rw [commit_frame]
      rfl
    · rfl

theorem failCount_of_withResultsOf {t v : State} (h : v = v.withResultsOf t) (c : FailCode) :
    v.failCount c = t.failCount c := by
  rw [h]
  cases c <;> rfl

theorem failCount_commitFrame (fo : Option Frame) (t : State) (c : FailCode) :
    (commitFrame fo t).failCount c = t.failCount c := by
  rw [commitFrame_eq]
  cases c <;> rfl

/-- A failing evaluation counts its failure (47_commit_and_counters.md R353). -/
theorem failCount_commit_fail (op : Opcode) (code : FailCode) (fo : Option Frame) (t : State) (c : FailCode) :
    (commit op (.fail code fo) t).failCount c =
      if c = code then min (t.failCount c + 1) (2 ^ 32 - 1) else t.failCount c := by
  have hraise : (raiseFailure op code fo t).failCount c = (countFailure code (setResult code.result
      (if op = opLevel then commitFrame fo t else dropSegments (commitFrame fo t)))).failCount c := by
    cases c <;> rfl
  have hkeep : (setResult code.result (if op = opLevel then commitFrame fo t
      else dropSegments (commitFrame fo t))).failCount c = t.failCount c := by
    rw [← failCount_commitFrame fo t c]
    split <;> cases c <;> rfl
  rw [commit, hraise, failCount_countFailure, hkeep]

/-- An evaluation that reaches its level counts nothing, a level fault included (47_commit_and_counters.md R354). -/
theorem failCount_commit_done (op : Opcode) (fo : Option Frame) (seg : List Byte) (lv : LevelResult) (t : State)
    (c : FailCode) : (commit op (.done fo seg lv) t).failCount c = t.failCount c := by
  rw [← failCount_commitFrame fo t c, commit, commitSegs]
  split <;> cases lv <;> cases c <;> rfl

/-- The units change a counter at a failing EVAL edge only. -/
theorem phaseStep_failCount (s t : State) (c : FailCode) :
    ((s.phase = .eval ∧ ∃ fo, evalCommand s.curOp s = some (.fail c fo)) ∧
      (phaseStep s t).failCount c = min (t.failCount c + 1) (2 ^ 32 - 1)) ∨
    (¬ (s.phase = .eval ∧ ∃ fo, evalCommand s.curOp s = some (.fail c fo)) ∧
      (phaseStep s t).failCount c = t.failCount c) := by
  rcases phaseStep_results_cases s t with ⟨hphase, h⟩ | ⟨hphase, h⟩ | ⟨hphase, h⟩
  · exact .inr ⟨fun hfail => hphase hfail.1, failCount_of_withResultsOf h c⟩
  · exact .inr ⟨by simp [hphase], by rw [h]; cases c <;> rfl⟩
  · rw [h]
    have hend (v : State) : v.endCommand.failCount c = v.failCount c := by cases c <;> rfl
    rcases evalStep_cases s t with ⟨e, he, hstep⟩ | ⟨he, hstep⟩ <;> rw [hstep, hend, he]
    · cases e with
      | fail code fo =>
        rw [failCount_commit_fail]
        by_cases hc : c = code
        · exact .inl ⟨⟨hphase, fo, by rw [hc]⟩, if_pos hc⟩
        · exact .inr ⟨by simp [Ne.symm hc], if_neg hc⟩
      | done fo seg lv => exact .inr ⟨by simp, failCount_commit_done _ _ _ _ _ _⟩
    · exact .inr ⟨by simp, rfl⟩

/-! ## The rules -/

theorem failCount_advance (s u : State) (c : FailCode) : (advance s u).failCount c = (phaseStep s u).failCount c := by
  cases c <;> rfl

/-- An edge without a reset: what the port left, and the rest of the edge. -/
theorem step_port {s t : State} (hrst : s.hostPins.rst = false) (h : step s = .next t) :
    ∃ u, PortLeaves s u ∧ t = advance s u := by
  obtain ⟨u, hu, hstep⟩ := step_next s hrst
  exact ⟨u, hu, Host.Outcome.next.inj (h.symm.trans hstep)⟩

/-- Settles O55: the port counts by CLRCNT only and while idle, the units at EVAL only and while busy. -/
theorem countersChangeOnlyByTheirRules : Obligations.CountersChangeOnlyByTheirRules := by
  rintro s t ⟨hbusy, -⟩ hrst hstep c
  obtain ⟨u, hu, rfl⟩ := step_port hrst hstep
  rw [failCount_advance]
  rcases port_failCount hu c with ⟨hcmd, hidle, hport⟩ | ⟨hport, hkeep⟩ <;>
    rcases phaseStep_failCount s u c with ⟨⟨hphase, hfail⟩, hunits⟩ | ⟨hunits, hkeep'⟩
  · have hb : s.busy = true := hbusy.mpr (by simp [hphase])
    rw [hb] at hidle
    cases hidle
  · exact ⟨fun _ => hkeep'.trans hport, fun h => absurd h hunits, fun h => absurd ⟨hcmd, hidle⟩ h⟩
  · exact ⟨fun h => absurd h hport, fun _ => by rw [hunits, hkeep], fun _ h => absurd ⟨hphase, hfail⟩ h⟩
  · exact ⟨fun h => absurd h hport, fun h => absurd h hunits, fun _ _ => hkeep'.trans hkeep⟩

/-- Settles O56: outside the address phases the units leave TX, and the port changes it in the two ways named. -/
theorem txChangesOnlyByItsWriters : Obligations.TxChangesOnlyByItsWriters := by
  intro s t _ hrst hstep hne
  obtain ⟨u, hu, rfl⟩ := step_port hrst hstep
  by_cases hoff : s.phase = .selOff
  · exact .inl hoff
  by_cases hon : s.phase = .selOn
  · exact .inr (.inl hon)
  rw [advance_tx, phaseStep_tx u hoff hon] at hne
  rcases port_ctrl_cases hu with ⟨hidle, a, d, hbus, hctrl, -⟩ | ⟨-, hkeep | hstart⟩
  · exact .inr (.inr (.inr ⟨hidle, a, d, hbus, hctrl⟩))
  · exact absurd hkeep hne
  · exact .inr (.inr (.inl hstart))

/-- Settles O57: while busy the port changes flags only, and no unit writes these registers. -/
theorem configurationIsFixedWhileBusy : Obligations.ConfigurationIsFixedWhileBusy := by
  intro s t hbusy hrst hstep
  obtain ⟨f, hf⟩ := step_of_busy hbusy hrst
  cases hstep.symm.trans hf
  simp

/-- Settles O58: an edge that goes on with the command ends no SELECT and evaluates nothing. -/
theorem resultsAppearOnlyAtTheEnd : Obligations.ResultsAppearOnlyAtTheEnd := by
  intro s t _ hbusy hrst hstep hruns
  obtain ⟨f, hf⟩ := step_of_busy hbusy hrst
  cases hstep.symm.trans hf
  rw [advance_busy] at hruns
  rcases phaseStep_results_cases s (s.withFlagsOf f) with ⟨-, h⟩ | ⟨-, h⟩ | ⟨-, h⟩
  · conv_lhs => rw [advance, h]
    rfl
  · rw [h] at hruns
    cases hruns
  · obtain ⟨-, hends, -⟩ := evalStep_ends s (s.withFlagsOf f)
    rw [h, hends] at hruns
    cases hruns

/-- Settles O59: DONE rises at an end edge only, and then IE stands as it was; IE rises by a write to CTRL while
idle only. -/
theorem irqRisesOnlyOnCompletion : Obligations.IrqRisesOnlyOnCompletion := by
  refine ⟨fun _ => rfl, fun s t ⟨hmatch, _⟩ hrst hstep hlow hhigh => ?_⟩
  obtain ⟨u, hu, rfl⟩ := step_port hrst hstep
  obtain ⟨hdone, hie⟩ : (advance s u).done = true ∧ u.ie = true := by simpa [State.irq] using hhigh
  obtain ⟨hb, hd⟩ := advance_busy_done s u
  cases hends : s.endsCommand with
  | true =>
    have hbusy := busy_of_endsCommand hmatch hends
    refine .inl ⟨hbusy, by rw [hb, endedBy_of_ends _ hends, endCommand_busy], ?_⟩
    rwa [port_busy s u hbusy hu] at hie
  | false =>
    rw [hd, endedBy_of_runs _ hends] at hdone
    have hset := done_of_port hu hdone
    have hclear : s.ie = false := by simpa [State.irq, hset] using hlow
    rcases port_ctrl_cases hu with ⟨hidle, a, d, hbus, hctrl, hbit⟩ | ⟨hkeep, -⟩
    · exact .inr ⟨hset, hidle, a, d, hbus, hctrl, hbit.symm.trans hie⟩
    · rw [hkeep, hclear] at hie
      cases hie

/-! ## The EVAL edge of a capture (41_commands.md R194 to R196) -/

/-- The EVAL edge writes the commit's result registers, the end's flags, and nothing else but IGN. -/
theorem results_of_eval_edge {s t f c : State}
    (h : t = (((s.withFlagsOf f).withResultsOf c).endCommand).withTimeOf t) :
    s.withResultsOf t = s.withResultsOf c ∧
      t = ({ s.withResultsOf t with phase := .idle, busy := false, done := true, ign := t.ign }).withTimeOf t := by
  have hresults : s.withResultsOf t = s.withResultsOf c := by rw [h]; rfl
  have hign : t.ign = f.ign := by rw [h]; rfl
  refine ⟨hresults, ?_⟩
  rw [hresults, hign]
  exact h

/-- Settles O17: the EVAL edge commits the decoded frame's verdict and level, and ends the command. -/
theorem captureCommandsEndInTheEvaluation : Obligations.CaptureCommandsEndInTheEvaluation := by
  intro s hbusy hphase hrst hop
  have hdecodes : decodesFrame s.curOp = true := by rcases hop with h | h | h <;> rw [h] <;> rfl
  have hcommits : commitsSegments s.curOp = true := by rw [commitsSegments, hdecodes, Bool.true_or]
  obtain ⟨f, hstep⟩ := step_of_busy hbusy hrst
  obtain ⟨hresults, hframe⟩ :=
    results_of_eval_edge (advance_of_eval f hphase (evalCommand_decodesFrame hdecodes s))
  exact ⟨_, hstep, hframe, frameFacts_of_results hresults (frameFacts_commit hcommits _ _ _ s),
    commitFacts_of_results hresults (commitFacts_commit hcommits _ _ _ s)⟩

end Sys2Proof.Machine

/-! Reads of the register port (40_host_access.md R162, 20_memory.md R106): they change nothing, and answer each field
in its bits. -/

namespace Sys2Proof.Machine

/-! ## STATUS (10_state.md R33, R53, R54) -/

/-- The bits of STATUS, field by field from bit 0. -/
theorem statusWord_getLsbD (s : State) (k : Nat) : s.statusWord.getLsbD k =
    if k = 0 then s.busy else if k = 1 then s.done else if k = 2 then s.ign
    else if k < 4 then false else if k < 7 then s.result.code.getLsbD (k - 4)
    else if k < 8 then false else if k < 11 then s.phase.code.getLsbD (k - 8)
    else if k = 16 then s.sync2 else if k = 17 then s.tx else false := by
  unfold State.statusWord
  simp only [BitVec.getLsbD_append]
  by_cases hk : k < 18
  · interval_cases k <;> simp
  · simp (disch := omega) only [if_neg]
    simp

theorem statusWord_result (s : State) : s.statusWord.extractLsb' 4 3 = s.result.code := by
  apply BitVec.eq_of_getLsbD_eq
  intro k hk
  rw [BitVec.getLsbD_extractLsb', statusWord_getLsbD]
  simp (disch := omega) only [if_neg, if_pos, hk, decide_true, Bool.true_and, Nat.add_sub_cancel_left]

theorem statusWord_phase (s : State) : s.statusWord.extractLsb' 8 3 = s.phase.code := by
  apply BitVec.eq_of_getLsbD_eq
  intro k hk
  rw [BitVec.getLsbD_extractLsb', statusWord_getLsbD]
  simp (disch := omega) only [if_neg, if_pos, hk, decide_true, Bool.true_and, Nat.add_sub_cancel_left]

/-- Settles O44: the fields by their bits, and the codes by their constructors. -/
theorem statusWordShowsTheFlags : Obligations.StatusWordShowsTheFlags := by
  intro s
  have hbit (k : Nat) := statusWord_getLsbD s k
  refine ⟨hbit 0, hbit 1, hbit 2, (statusWord_result s).trans ?_, (statusWord_phase s).trans ?_, hbit 16, hbit 17, ?_⟩
  · cases s.result <;> rfl
  · cases s.phase <;> rfl
  · intro k hk
    refine (hbit k).trans ?_
    rcases hk with rfl | rfl | hk | hk
    · rfl
    · rfl
    · simp (disch := omega) only [if_neg]
    · simp (disch := omega) only [if_neg]

/-! ## A read has no effect -/

theorem readval_drive (r : Reg) (s : State) (p : HostPins) : readval r (s.drive p) = readval r s := by
  cases r <;> rfl

/-- An edge with a read. -/
theorem step_asks_read (s : State) (a : Addr) : step (s.asks (.read a)) = .next (advance s s) := by
  rw [step_asks_of_no_command _ _ (by rw [State.command, asks_busOp]), portEffect, asks_busOp]
  simp only [advance_drive_left, advance_drive_right]

theorem busRdata_asks_read (s : State) (a : Addr) : (s.asks (.read a)).busRdata = readval (regAt a) s := by
  rw [State.busRdata, asks_busOp]
  exact readval_drive _ _ _

/-- CTRL, bit by bit (10_state.md R31). -/
theorem ctrlWord_getLsbD (s : State) (k : Nat) : s.ctrlWord.getLsbD k =
    if k = 0 then s.toEn else if k = 1 then s.ie else if k = 2 then s.tx else false := by
  unfold State.ctrlWord
  simp only [BitVec.getLsbD_append]
  rcases k with _ | _ | _ | k <;> simp

theorem readval_cal_toNat (i : Fin 8) (s : State) :
    (readval (.cal i) s).toNat = s.cal[i].valid.toNat * 2 ^ 31 + s.cal[i].ref.toNat := by
  simp only [readval]
  rw [BitVec.toNat_append, ← Nat.shiftLeft_add_eq_or_of_lt (BitVec.isLt _), BitVec.toNat_append,
    ← Nat.shiftLeft_add_eq_or_of_lt (BitVec.isLt _), BitVec.toNat_ofBool, Nat.shiftLeft_eq, Nat.shiftLeft_eq]
  simp only [BitVec.toNat_ofNat, Nat.zero_mod, Nat.add_zero]
  ring

/-- Settles O45: the port leaves the pre-edge state, and each register answers its field in the low bits. -/
theorem readsHaveNoEffect : Obligations.ReadsHaveNoEffect := by
  refine ⟨fun s a => ⟨?_, busRdata_asks_read s a⟩, fun s => ⟨⟨?_, ?_, ?_, ?_⟩, ?_⟩⟩
  · rw [step_asks_read, step_asks_none]
  · exact ctrlWord_getLsbD s 0
  · exact ctrlWord_getLsbD s 1
  · exact ctrlWord_getLsbD s 2
  · intro k hk
    refine (ctrlWord_getLsbD s k).trans ?_
    simp (disch := omega) only [if_neg]
  · have hfield {n : Nat} (v : BitVec n) (h : n ≤ 32) : (v.zeroExtend 32).toNat = v.toNat :=
      BitVec.toNat_setWidth_of_le h
    exact ⟨rfl, rfl, hfield _ (by omega), hfield _ (by omega), hfield _ (by omega), rfl, rfl, rfl, rfl, rfl,
      hfield _ (by omega), hfield _ (by omega), hfield _ (by omega), rfl, fun i => readval_cal_toNat i s,
      fun _ => hfield _ (by omega), fun _ => hfield _ (by omega), fun _ => hfield _ (by omega)⟩

end Sys2Proof.Machine

/-! Runs of many edges (43_pulse_capture.md R240, R241): the timebase counts ticks, the synchroniser hands the line on,
and a wait leaves everything but the flags of the host. -/

namespace Sys2Proof.Machine

/-! ## Ticks since a time stamp (42_bus_addressor.md R220, 43_pulse_capture.md R241) -/

/-- The edges from the edge at which US was last `start` and PRE 0, mod 2^32 microseconds. -/
def State.ticksSince (s : State) (start : Micros) : Nat :=
  (elapsed s.us start).toNat * s.params.ticksPerUs + s.pre

theorem ticksSince_now (s : State) : s.ticksSince s.us = s.pre := by
  simp [State.ticksSince, elapsed]

theorem ticksSince_zero (s : State) : s.ticksSince 0 = s.us.toNat * s.params.ticksPerUs + s.pre := by
  simp [State.ticksSince, elapsed]

/-- Microseconds below 2^32 and a rest below one microsecond. -/
theorem ticks_lt (v : Micros) {ticks rest : Nat} (h : rest < ticks) : v.toNat * ticks + rest < 2 ^ 32 * ticks :=
  calc
    v.toNat * ticks + rest < (v.toNat + 1) * ticks := by
      rw [Nat.add_mul, Nat.one_mul]
      exact Nat.add_lt_add_left h _
    _ ≤ 2 ^ 32 * ticks := Nat.mul_le_mul_right _ v.isLt

theorem ticksSince_lt {s : State} (hpre : s.prescalerInRange) (start : Micros) :
    s.ticksSince start < 2 ^ 32 * s.params.ticksPerUs :=
  ticks_lt _ hpre

theorem holdTicks_lt (n : BitVec 16) (p : Params) : n.toNat * p.ticksPerUs < 2 ^ 32 * p.ticksPerUs :=
  Nat.mul_lt_mul_of_pos_right (n.isLt.trans (by decide)) (ticksPerUs_pos p)

/-- A number of microseconds has elapsed when its ticks have. -/
theorem le_elapsed_iff {s : State} (hpre : s.prescalerInRange) (start : Micros) (n : Nat) :
    n ≤ (elapsed s.us start).toNat ↔ n * s.params.ticksPerUs ≤ s.ticksSince start := by
  refine ⟨fun h => ?_, fun h => ?_⟩
  · exact (Nat.mul_le_mul_right _ h).trans (Nat.le_add_right _ _)
  · have hlt : n * s.params.ticksPerUs < ((elapsed s.us start).toNat + 1) * s.params.ticksPerUs := by
      rw [Nat.add_mul, Nat.one_mul]
      exact h.trans_lt (Nat.add_lt_add_left hpre _)
    exact Nat.le_of_lt_succ (Nat.lt_of_mul_lt_mul_right hlt)

/-- One edge without a reset is one tick. -/
theorem ticksSince_step {s t : State} (hrst : s.hostPins.rst = false) (hpre : s.prescalerInRange)
    (h : step s = .next t) (start : Micros) : t.prescalerInRange ∧
      t.ticksSince start = (s.ticksSince start + 1) % (2 ^ 32 * s.params.ticksPerUs) := by
  obtain ⟨htpre, htus, -⟩ := step_time hrst h
  rw [State.prescalerInRange, Params.ticksPerUs] at hpre
  rw [State.prescalerInRange, State.ticksSince, step_params h, htpre, htus]
  by_cases hwrap : s.pre = s.params.ticksLess1
  · have hsucc : elapsed (s.us + 1) start = elapsed s.us start + 1 := by
      rw [elapsed, elapsed]
      exact add_sub_right_comm s.us 1 start
    have hnext : s.ticksSince start + 1 = ((elapsed s.us start).toNat + 1) * s.params.ticksPerUs := by
      rw [State.ticksSince, hwrap, Params.ticksPerUs]
      ring
    rw [if_pos hwrap, if_pos hwrap, hnext, hsucc, BitVec.toNat_add, Nat.mul_mod_mul_right]
    exact ⟨ticksPerUs_pos _, rfl⟩
  · rw [if_neg hwrap, if_neg hwrap]
    have hrest : s.pre + 1 < s.params.ticksPerUs := by rw [Params.ticksPerUs]; omega
    exact ⟨hrest, (Nat.mod_eq_of_lt (ticks_lt (elapsed s.us start) hrest)).symm⟩

/-! ## Runs without a reset -/

theorem noResetFor_of_le {s : State} {m n : Nat} (h : s.noResetFor n) (hle : m ≤ n) : s.noResetFor m := by
  obtain ⟨hlen, hrst⟩ := h
  exact ⟨hle.trans hlen, fun p hp => hrst p ((List.take_subset_take_left s.host hle) hp)⟩

theorem noResetFor_run {n r : Nat} {s t : State} (hreset : s.noResetFor (n + r)) (h : runFor n s = some t) :
    t.noResetFor r := by
  induction n generalizing s with
  | zero => cases h; rwa [Nat.zero_add] at hreset
  | succ n ih =>
    obtain ⟨u, hu, ht⟩ := runFor_succ_inv h
    rw [Nat.succ_add] at hreset
    exact ih (noResetFor_step hreset hu) ht

theorem ticksSince_run {n : Nat} {s t : State} (hreset : s.noResetFor n) (hpre : s.prescalerInRange)
    (h : runFor n s = some t) (start : Micros) : t.prescalerInRange ∧ t.params = s.params ∧
      t.ticksSince start = (s.ticksSince start + n) % (2 ^ 32 * s.params.ticksPerUs) := by
  induction n generalizing s with
  | zero => cases h; exact ⟨hpre, rfl, (Nat.mod_eq_of_lt (ticksSince_lt hpre start)).symm⟩
  | succ n ih =>
    obtain ⟨u, hu, ht⟩ := runFor_succ_inv h
    obtain ⟨hupre, huticks⟩ := ticksSince_step (noResetFor_now s n hreset) hpre hu start
    obtain ⟨htpre, hparams, htticks⟩ := ih (noResetFor_step hreset hu) hupre ht
    rw [step_params hu] at hparams htticks
    refine ⟨htpre, hparams, ?_⟩
    rw [htticks, huticks, Nat.mod_add_mod]
    congr 1
    omega

/-- Settles O25: the ticks since US was 0. -/
theorem timebaseCountsEveryEdge : Obligations.TimebaseCountsEveryEdge := by
  intro n s t hpre hreset h
  obtain ⟨htpre, hparams, hticks⟩ := ticksSince_run hreset hpre h 0
  rw [ticksSince_zero, ticksSince_zero, hparams] at hticks
  rw [State.prescalerInRange, hparams] at htpre
  exact ⟨htpre, by rw [hticks, Nat.mod_mod]⟩

/-- The line as the capture engine will see it: the two synchroniser stages and the scripted waveform behind them. -/
def State.line (s : State) : List Bool := s.sync2 :: s.sync1 :: s.rxWave

theorem line_step {s t : State} (hrst : s.hostPins.rst = false) (h : step s = .next t) {m : Nat} {b : Bool}
    (hb : s.line[m + 1]? = some b) : t.line[m]? = some b := by
  obtain ⟨-, -, hsync1, hsync2, hwave⟩ := step_time hrst h
  rw [State.line, List.getElem?_cons_succ] at hb
  rw [State.line, hsync1, hsync2, hwave, State.rxPin]
  cases hrx : s.rxWave with
  | nil =>
    obtain rfl : m = 0 := by
      rw [hrx] at hb
      cases m with
      | zero => rfl
      | succ m => simp at hb
    simpa using hb
  | cons x xs => simpa [hrx] using hb

/-- rx_s after `m` edges is the line's entry `m`. -/
theorem sync2_run {m : Nat} {s t : State} {b : Bool} (hreset : s.noResetFor m) (h : runFor m s = some t)
    (hb : s.line[m]? = some b) : t.sync2 = b := by
  induction m generalizing s with
  | zero => cases h; simpa [State.line] using hb
  | succ m ih =>
    obtain ⟨u, hu, ht⟩ := runFor_succ_inv h
    exact ih (noResetFor_step hreset hu) ht (line_step (noResetFor_now s m hreset) hu hb)

/-! ## Waiting -/

/-- `t` is `v` but for the host's flags DONE and IGN and what every edge moves on. -/
def EdgeLeaves (v t : State) : Prop := t = (v.withFlagsOf t).withTimeOf t

theorem EdgeLeaves.refl (s : State) : EdgeLeaves s s := rfl

theorem EdgeLeaves.trans {v t u : State} (h : EdgeLeaves v t) (h' : EdgeLeaves t u) : EdgeLeaves v u := by
  rw [EdgeLeaves, h] at h'
  exact h'

section Fields

variable {v t : State} (h : EdgeLeaves v t)
include h

theorem EdgeLeaves.busy : t.busy = v.busy := by rw [h]; rfl
theorem EdgeLeaves.phase : t.phase = v.phase := by rw [h]; rfl
theorem EdgeLeaves.tx : t.tx = v.tx := by rw [h]; rfl
theorem EdgeLeaves.toEn : t.toEn = v.toEn := by rw [h]; rfl
theorem EdgeLeaves.timeoutUs : t.timeoutUs = v.timeoutUs := by rw [h]; rfl
theorem EdgeLeaves.selOffUs : t.selOffUs = v.selOffUs := by rw [h]; rfl
theorem EdgeLeaves.selOnUs : t.selOnUs = v.selOnUs := by rw [h]; rfl
theorem EdgeLeaves.tStart : t.tStart = v.tStart := by rw [h]; rfl
theorem EdgeLeaves.tFall : t.tFall = v.tFall := by rw [h]; rfl
theorem EdgeLeaves.selRemain : t.selRemain = v.selRemain := by rw [h]; rfl
theorem EdgeLeaves.curOp : t.curOp = v.curOp := by rw [h]; rfl
theorem EdgeLeaves.durCount : t.durCount = v.durCount := by rw [h]; rfl
theorem EdgeLeaves.dur : t.dur = v.dur := by rw [h]; rfl
theorem EdgeLeaves.params : t.params = v.params := by rw [h]; rfl
theorem EdgeLeaves.result : t.result = v.result := by rw [h]; rfl
theorem EdgeLeaves.levelNum : t.levelNum = v.levelNum := by rw [h]; rfl
theorem EdgeLeaves.levelDen : t.levelDen = v.levelDen := by rw [h]; rfl

end Fields

/-- The flags that the port leaves show in no other field after the edge. -/
theorem advance_withFlagsOf (s f : State) :
    advance s (s.withFlagsOf f) = (advance s s).withFlagsOf (advance s (s.withFlagsOf f)) := by
  have hbusy : ((s.withFlagsOf f).endedBy s).busy = (advance s s).busy := by
    rw [(advance_busy_done s s).1]
    cases he : s.endsCommand with
    | true => rw [endedBy_of_ends _ he, endedBy_of_ends _ he]; rfl
    | false => rw [endedBy_of_runs _ he, endedBy_of_runs _ he]; rfl
  have hadvance := advance_withUnreadOf s s (s.withFlagsOf f)
  rw [hbusy] at hadvance
  replace hadvance : advance s (s.withFlagsOf f) = _ := hadvance
  rw [hadvance]
  rfl

/-- While a command runs, an edge without a reset leaves what the unit of the phase makes of the pre-edge state. -/
theorem edgeLeaves_of_step {s t : State} (hbusy : s.busy = true) (hrst : s.hostPins.rst = false)
    (h : step s = .next t) : EdgeLeaves (phaseStep s s) t := by
  obtain ⟨f, hf⟩ := step_of_busy hbusy hrst
  cases h.symm.trans hf
  exact advance_withFlagsOf s f

/-- A run in which every unit so far waits leaves what it started from. -/
theorem wait_run {n : Nat} {s : State} (hbusy : s.busy = true) (hreset : s.noResetFor n)
    (hwait : ∀ m u, m < n → runFor m s = some u → EdgeLeaves s u → phaseStep u u = u) :
    ∃ t, runFor n s = some t ∧ EdgeLeaves s t := by
  induction n with
  | zero => exact ⟨s, rfl, EdgeLeaves.refl s⟩
  | succ n ih =>
    obtain ⟨u, hrun, hu⟩ := ih (noResetFor_of_le hreset (Nat.le_succ n)) fun m v hm => hwait m v (by omega)
    obtain ⟨t, hstep⟩ := exists_step u
    have ht := edgeLeaves_of_step (hu.busy.trans hbusy) (noResetFor_now u 0 (noResetFor_run hreset hrun)) hstep
    rw [hwait n u (Nat.lt_succ_self n) hrun hu] at ht
    exact ⟨t, by rw [runFor_add n 1 s u hrun, runFor_succ 0 u t hstep, runFor_zero], hu.trans ht⟩

/-! ## A capture waits (43_pulse_capture.md R244, R245) -/

theorem timedOut_eq_false {s : State} {start : Micros}
    (h : s.toEn = false ∨ (elapsed s.us start).toNat < s.timeoutUs.toNat) : timedOut s start = false := by
  rw [Bool.eq_false_iff, ne_eq, timedOut_iff]
  rintro ⟨hon, hlate⟩
  rcases h with hoff | hearly
  · rw [hoff] at hon
    cases hon
  · exact absurd hlate (Nat.not_le.mpr hearly)

theorem capHigh_waits {s : State} (hphase : s.phase = .capHigh) (hhigh : s.sync2 = true)
    (htime : timedOut s s.tStart = false) : phaseStep s s = s := by
  rw [phaseStep_capHigh _ _ hphase]
  simp [capHighStep, hhigh, htime]

theorem capLow_waits {s : State} (hphase : s.phase = .capLow) (hlow : s.sync2 = false)
    (htime : timedOut s s.tFall = false) : phaseStep s s = s := by
  rw [phaseStep_capLow _ _ hphase]
  simp [capLowStep, hlow, htime]

/-- A capture wait whose level does not come, with the timeout off (43_pulse_capture.md R252). -/
theorem silent_waits {s : State} {level : Bool} (hphase : s.phase = if level then .capHigh else .capLow)
    (htimeout : s.toEn = false) (hlevel : s.sync2 = level) : phaseStep s s = s := by
  cases level with
  | true => exact capHigh_waits hphase hlevel (timedOut_eq_false (.inl htimeout))
  | false => exact capLow_waits hphase hlevel (timedOut_eq_false (.inl htimeout))

/-- Settles O31: the line stays at its level, so every edge waits. -/
theorem silentLineHangsWithoutTheTimeout : Obligations.SilentLineHangsWithoutTheTimeout := by
  intro n s level hbusy hphase htimeout hsync1 hsync2 hlen hwave hreset
  have hline : ∀ m < n, s.line[m]? = some level := by
    intro m hm
    match m with
    | 0 => exact congrArg some hsync2
    | 1 => exact congrArg some hsync1
    | m + 2 =>
      have hlt : m < s.rxWave.length := by omega
      have hmem : s.rxWave[m] ∈ s.rxWave.take n := List.mem_take_iff_getElem.mpr ⟨m, by omega, rfl⟩
      rw [State.line, List.getElem?_cons_succ, List.getElem?_cons_succ, List.getElem?_eq_getElem hlt, hwave _ hmem]
  obtain ⟨t, hrun, ht⟩ := wait_run hbusy hreset fun m u hm hrun hu =>
    silent_waits (hu.phase.trans hphase) (hu.toEn.trans htimeout)
      (sync2_run (noResetFor_of_le hreset hm.le) hrun (hline m hm))
  exact ⟨t, hrun, ht.busy.trans hbusy, ht.phase, ht.durCount, ht.toEn.trans htimeout⟩

/-! ## The width of a low phase (43_pulse_capture.md R245, R254) -/

/-- With one tick per microsecond the ticks are the microseconds. -/
theorem elapsed_eq_ticksSince {s : State} (hticks : s.params.ticksPerUs = 1) (hpre : s.prescalerInRange)
    (start : Micros) : (elapsed s.us start).toNat = s.ticksSince start := by
  rw [State.prescalerInRange, hticks] at hpre
  rw [State.ticksSince, hticks]
  omega

/-- One edge after a time stamp one tick has passed. -/
theorem ticksSince_start {s t : State} (hrst : s.hostPins.rst = false) (hpre : s.prescalerInRange)
    (h : step s = .next t) : t.prescalerInRange ∧ t.ticksSince s.us = s.pre + 1 := by
  obtain ⟨htpre, hticks⟩ := ticksSince_step hrst hpre h s.us
  refine ⟨htpre, hticks.trans ?_⟩
  rw [ticksSince_now]
  have hpos := ticksPerUs_pos s.params
  exact Nat.mod_eq_of_lt (by rw [State.prescalerInRange] at hpre; omega)

/-- `k` more low edges after the falling edge: the low phase has lasted `k + 1` microseconds. -/
theorem low_run {t : State} {k : Nat} (hbusy : t.busy = true) (hphase : t.phase = .capLow)
    (hone : t.params.ticksPerUs = 1) (hpre : t.prescalerInRange) (hstart : t.ticksSince t.tFall = 1)
    (hlow : ∀ m < k, t.line[m]? = some false) (htimeout : t.toEn = false ∨ k + 1 ≤ t.timeoutUs.toNat)
    (hk : k + 1 < 2 ^ 32) (hreset : t.noResetFor k) :
    ∃ u, runFor k t = some u ∧ EdgeLeaves t u ∧ (elapsed u.us u.tFall).toNat = k + 1 := by
  have hwidth {m : Nat} {u : State} (hm : m ≤ k) (hrun : runFor m t = some u) (hu : EdgeLeaves t u) :
      (elapsed u.us u.tFall).toNat = m + 1 := by
    obtain ⟨hupre, hparams, hticks⟩ := ticksSince_run (noResetFor_of_le hreset hm) hpre hrun t.tFall
    rw [elapsed_eq_ticksSince (by rw [hparams, hone]) hupre, hu.tFall, hticks, hstart, hone,
      Nat.mod_eq_of_lt (by omega), Nat.add_comm]
  obtain ⟨u, hrun, hu⟩ := wait_run hbusy hreset fun m u hm hrun hu => by
    refine capLow_waits (hu.phase.trans hphase) (sync2_run (noResetFor_of_le hreset hm.le) hrun (hlow m hm))
      (timedOut_eq_false ?_)
    rw [hwidth hm.le hrun hu, hu.toEn, hu.timeoutUs]
    exact htimeout.imp_right fun hlong => by omega
  exact ⟨u, hrun, hu, hwidth le_rfl hrun hu⟩

/-- Settles O28: the falling edge, the rest of the low phase, and the edge that stores it. -/
theorem measuredWidthIsTheLowPhase : Obligations.MeasuredWidthIsTheLowPhase := by
  intro s len after hbusy hphase hcount hone hzero hpos hlt htimeout hline hreset
  obtain ⟨k, rfl⟩ := Nat.exists_eq_add_of_le' hpos
  have hlow : ∀ m < k + 1, s.line[m]? = some false := fun m hm => by
    rw [State.line, hline, List.getElem?_append_left (by simpa using hm), List.getElem?_replicate_of_lt hm]
  have hhigh : s.line[k + 1]? = some true := by
    rw [State.line, hline, List.getElem?_append_right (by simp)]
    simp
  have hrst := noResetFor_now s (k + 1) hreset
  have hpre : s.prescalerInRange := by rw [State.prescalerInRange, hone, hzero]; decide
  -- the falling edge
  obtain ⟨t, hfall, ht⟩ := capHighEdge s hbusy hphase hrst
  have hs2 : s.sync2 = false := Option.some.inj (hlow 0 (Nat.succ_pos k))
  rw [if_pos hs2] at ht
  replace ht : EdgeLeaves { s with tFall := s.us, phase := .capLow } t := ht
  have hreset' := noResetFor_step hreset hfall
  obtain ⟨htpre, hticks⟩ := ticksSince_start hrst hpre hfall
  -- the low phase
  obtain ⟨u, hrun, hu, hwidth⟩ := low_run (t := t) (k := k) (ht.busy.trans hbusy) ht.phase (by rw [ht.params, hone])
    htpre (by rw [ht.tFall, hticks, hzero]) (fun m hm => line_step hrst hfall (hlow (m + 1) (by omega)))
    (by rwa [ht.toEn, ht.timeoutUs]) hlt (noResetFor_of_le hreset' (Nat.le_succ k))
  have hus2 : u.sync2 = true :=
    sync2_run (noResetFor_of_le hreset' (Nat.le_succ k)) hrun (line_step hrst hfall hhigh)
  have hucount : u.durCount = s.durCount := hu.durCount.trans ht.durCount
  have hudur : u.dur = s.dur := hu.dur.trans ht.dur
  -- the rising edge
  obtain ⟨v, hrise, hstore, -⟩ := capLowEdge u (hu.busy.trans (ht.busy.trans hbusy)) (hu.phase.trans ht.phase)
    (by rwa [hucount]) (noResetFor_now u 0 (noResetFor_run hreset' hrun))
  obtain ⟨hnew, hold, hnext, hv⟩ := hstore hus2
  rw [hucount, hudur] at hold
  rw [hucount] at hnew hnext
  have hvphase := congrArg State.phase hv
  refine ⟨v, ?_, ?_, hold, hnext, ?_⟩
  · rw [runFor_succ _ _ _ hfall, runFor_add k 1 t u hrun, runFor_succ 0 u v hrise, runFor_zero]
  · rw [hnew]
    exact congrArg (fun n => some (BitVec.ofNat 16 (min n 65535))) hwidth
  · rw [hvphase, hucount]
    by_cases hlast : s.durCount.toNat = 95
    · simp [hlast]
    · simp [hlast, show s.durCount.toNat + 1 ≠ 96 by omega]

end Sys2Proof.Machine

/-! Holds and pulses of the Bus Addressor (42_bus_addressor.md R224, R228): how many edges a hold lasts, and a SELECT
from its start to its end. -/

namespace Sys2Proof.Machine

/-! ## A hold (42_bus_addressor.md R222 to R224) -/

/-- A READ or SELECT in one of its address phases. -/
structure State.Addressing (s : State) : Prop where
  busy : s.busy = true
  phase : s.phase = .selOff ∨ s.phase = .selOn
  command : s.curOp = opRead ∨ s.curOp = opSelect

/-- The hold of the address phase, in microseconds. -/
def State.holdUs (s : State) : BitVec 16 := if s.phase = .selOff then s.selOffUs else s.selOnUs

theorem holdUs_of_selOff {s : State} (h : s.phase = .selOff) : s.holdUs = s.selOffUs := if_pos h

theorem holdUs_of_selOn {s : State} (h : s.phase = .selOn) : s.holdUs = s.selOnUs := by
  rw [State.holdUs, h]
  rfl

theorem EdgeLeaves.holdUs {v t : State} (h : EdgeLeaves v t) : t.holdUs = v.holdUs := by
  rw [State.holdUs, h.phase, h.selOffUs, h.selOnUs]
  rfl

theorem EdgeLeaves.addressing {v t : State} (h : EdgeLeaves v t) (hv : v.Addressing) : t.Addressing :=
  ⟨h.busy.trans hv.busy, by rw [h.phase]; exact hv.phase, by rw [h.curOp]; exact hv.command⟩

/-- The hold has lasted long enough: the coming edge ends it. -/
def State.HoldOver (s : State) : Prop := s.holdUs.toNat ≤ (elapsed s.us s.tStart).toNat

theorem hold_waits {s : State} (hs : s.Addressing) (h : ¬ s.HoldOver) : phaseStep s s = s := by
  rw [State.HoldOver] at h
  rcases hs.phase with hphase | hphase
  · rw [holdUs_of_selOff hphase] at h
    rw [phaseStep_selOff _ _ hphase]
    rcases selOffStep_cases s s with ⟨hel, -⟩ | ⟨-, hwait⟩
    · exact absurd hel h
    · exact hwait
  · rw [holdUs_of_selOn hphase] at h
    rw [phaseStep_selOn _ _ hphase]
    rcases selOnStep_cases s s with ⟨hel, -⟩ | ⟨hel, -⟩ | ⟨-, hwait⟩
    · exact absurd hel h
    · exact absurd hel h
    · exact hwait

/-- A hold waits until its ticks have passed; `n` is at most what is left of them. -/
theorem hold_run {s : State} {n : Nat} (hs : s.Addressing) (hpre : s.prescalerInRange) (hreset : s.noResetFor n)
    (hn : n ≤ s.holdUs.toNat * s.params.ticksPerUs - s.ticksSince s.tStart) :
    ∃ t, runFor n s = some t ∧ EdgeLeaves s t ∧ t.prescalerInRange ∧ t.params = s.params ∧
      t.ticksSince t.tStart = s.ticksSince s.tStart + n := by
  have hhold := holdTicks_lt s.holdUs s.params
  have hnow := ticksSince_lt hpre s.tStart
  have hticks {m : Nat} {u : State} (hm : m ≤ n) (hrun : runFor m s = some u) (hu : EdgeLeaves s u) :
      u.prescalerInRange ∧ u.params = s.params ∧ u.ticksSince u.tStart = s.ticksSince s.tStart + m := by
    obtain ⟨hupre, hparams, hticks⟩ := ticksSince_run (noResetFor_of_le hreset hm) hpre hrun s.tStart
    exact ⟨hupre, hparams, by rw [hu.tStart, hticks, Nat.mod_eq_of_lt (by omega)]⟩
  obtain ⟨t, hrun, ht⟩ := wait_run hs.busy hreset fun m u hm hrun hu => by
    obtain ⟨hupre, hparams, hum⟩ := hticks hm.le hrun hu
    refine hold_waits (hu.addressing hs) ?_
    rw [State.HoldOver, le_elapsed_iff hupre, hum, hu.holdUs, hparams]
    omega
  exact ⟨t, hrun, ht, hticks le_rfl hrun ht⟩

/-- A hold begun at the edge of `s` with PRE = p lasts max(1, N·T − p) edges (42_bus_addressor.md R224). -/
theorem hold_lasts {s t : State} {d : Nat} (hpre : s.prescalerInRange) (hstep : step s = .next t)
    (ht : t.Addressing) (hstart : t.tStart = s.us)
    (hd : d = max 1 (t.holdUs.toNat * s.params.ticksPerUs - s.pre)) (hreset : s.noResetFor (d + 1)) :
    (∃ u, runFor d s = some u ∧ EdgeLeaves t u ∧ u.HoldOver ∧ u.hostPins.rst = false) ∧
    ∀ m u, 1 ≤ m → m ≤ d → runFor m s = some u → EdgeLeaves t u := by
  obtain ⟨k, rfl⟩ : ∃ k, d = k + 1 := ⟨d - 1, by omega⟩
  obtain ⟨htpre, hticks⟩ := ticksSince_start (noResetFor_now s (k + 1) hreset) hpre hstep
  rw [← hstart] at hticks
  have hreset' := noResetFor_step hreset hstep
  have hrun {n : Nat} (hn : n ≤ k) := hold_run (n := n) ht htpre (noResetFor_of_le hreset' (by omega))
    (by rw [step_params hstep, hticks]; omega)
  refine ⟨?_, fun m u hpos hm hu => ?_⟩
  · obtain ⟨u, hu, hleaves, hupre, hparams, huticks⟩ := hrun le_rfl
    refine ⟨u, by rw [runFor_succ _ _ _ hstep, hu], hleaves, ?_, noResetFor_now u 0 (noResetFor_run hreset' hu)⟩
    rw [State.HoldOver, le_elapsed_iff hupre, huticks, hticks, hleaves.holdUs, hparams, step_params hstep]
    omega
  · obtain ⟨n, rfl⟩ := Nat.exists_eq_add_of_le' hpos
    obtain ⟨v, hv, hleaves, -⟩ := hrun (n := n) (by omega)
    rw [runFor_succ _ _ _ hstep, hv] at hu
    cases hu
    exact hleaves

/-! ## The edges that begin and end a hold -/

/-- The end of an off hold begins the on hold (42_bus_addressor.md R222). -/
theorem edge_of_off_over {s t : State} (hs : s.Addressing) (hphase : s.phase = .selOff) (hover : s.HoldOver)
    (hrst : s.hostPins.rst = false) (h : step s = .next t) : EdgeLeaves (turnOn s s) t := by
  have hleaves := edgeLeaves_of_step hs.busy hrst h
  rw [State.HoldOver, holdUs_of_selOff hphase] at hover
  rw [phaseStep_selOff _ _ hphase] at hleaves
  rcases selOffStep_cases s s with ⟨-, hon⟩ | ⟨hearly, -⟩
  · rwa [hon] at hleaves
  · exact absurd hover (Nat.not_le.mpr hearly)

/-- The end of an on hold begins the next pulse, or ends the last one (42_bus_addressor.md R223). -/
theorem edge_of_on_over {s t : State} (hs : s.Addressing) (hphase : s.phase = .selOn) (hover : s.HoldOver)
    (hrst : s.hostPins.rst = false) (h : step s = .next t) :
    (1 < s.selRemain.toNat ∧ EdgeLeaves (nextPulse s s) t) ∨
    (s.selRemain.toNat ≤ 1 ∧ EdgeLeaves (selectDone s s) t) := by
  have hleaves := edgeLeaves_of_step hs.busy hrst h
  rw [State.HoldOver, holdUs_of_selOn hphase] at hover
  rw [phaseStep_selOn _ _ hphase] at hleaves
  rcases selOnStep_cases s s with ⟨-, hmore, hnext⟩ | ⟨-, hlast, hdone⟩ | ⟨hearly, -⟩
  · rw [hnext] at hleaves
    exact .inl ⟨hmore, hleaves⟩
  · rw [hdone] at hleaves
    exact .inr ⟨hlast, hleaves⟩
  · exact absurd hover (Nat.not_le.mpr hearly)

theorem selectDone_phase_ne {s : State} (hop : s.curOp = opRead ∨ s.curOp = opSelect) :
    (selectDone s s).phase ≠ .selOn := by
  rcases selectDone_cases s s with ⟨-, h⟩ | ⟨-, h⟩ | ⟨hread, hselect, -⟩
  · rw [h]; simp
  · rw [h]; simp
  · exact absurd hop (not_or.mpr ⟨hread, hselect⟩)

theorem addressing_of_inv {s : State} (hinv : s.inv) (hphase : s.phase = .selOff ∨ s.phase = .selOn) :
    s.Addressing := by
  obtain ⟨hbusy, -, -, -, -, hsel, -⟩ := hinv
  refine ⟨hbusy.mpr fun hidle => ?_, hphase, (hsel hphase).2⟩
  rcases hphase with h | h <;> rw [hidle] at h <;> cases h

/-- An edge of an idle block leaves what the port wrote. -/
theorem edgeLeaves_of_idle {s : State} (u : State) (hphase : s.phase = .idle) : EdgeLeaves u (advance s u) := by
  have h := advance_of_idle u hphase
  generalize advance s u = t at h ⊢
  calc
    t = u.withTimeOf t := h
    _ = (u.withFlagsOf (u.withTimeOf t)).withTimeOf t := rfl
    _ = (u.withFlagsOf t).withTimeOf t := by rw [← h]

/-- READ and SELECT start alike but for their OP (42_bus_addressor.md R221). -/
theorem exec_of_addressing {s : State} {i : Instr} {n : Sensor} (hidle : s.busy = false)
    (hi : i = .read n ∨ i = .select n) :
    ∃ op, (op = opRead ∨ op = opSelect) ∧ exec i s = .next (beginSelect n s (startCommand op n s)) := by
  rcases hi with rfl | rfl
  · exact ⟨opRead, .inl rfl, exec_read n hidle⟩
  · exact ⟨opSelect, .inr rfl, exec_select n hidle⟩

/-- An off hold, and the edge that ends it. -/
theorem off_hold_lasts {s t : State} {d : Nat} (hpre : s.prescalerInRange) (hstep : step s = .next t)
    (ht : t.Addressing) (hphase : t.phase = .selOff) (htx : t.tx = false) (hstart : t.tStart = s.us)
    (hd : d = max 1 (t.selOffUs.toNat * s.params.ticksPerUs - s.pre)) (hreset : s.noResetFor (d + 1)) :
    (∃ v, runFor (d + 1) s = some v ∧ v.phase = .selOn ∧ v.tx = true) ∧
    ∀ m u, 1 ≤ m → m ≤ d → runFor m s = some u → u.phase = .selOff ∧ u.tx = false := by
  rw [← holdUs_of_selOff hphase] at hd
  obtain ⟨⟨u, hrun, hu, hover, hrst⟩, hhold⟩ := hold_lasts hpre hstep ht hstart hd hreset
  obtain ⟨v, hv⟩ := exists_step u
  have hon := edge_of_off_over (hu.addressing ht) (hu.phase.trans hphase) hover hrst hv
  refine ⟨⟨v, by rw [runFor_add d 1 s u hrun, runFor_succ 0 u v hv, runFor_zero], hon.phase, hon.tx⟩, ?_⟩
  intro m u hpos hm hu
  have hleaves := hhold m u hpos hm hu
  exact ⟨hleaves.phase.trans hphase, hleaves.tx.trans htx⟩

/-- An on hold, and the edge that ends it. -/
theorem on_hold_lasts {s t : State} {d : Nat} (hpre : s.prescalerInRange) (hstep : step s = .next t)
    (ht : t.Addressing) (hphase : t.phase = .selOn) (htx : t.tx = true) (hstart : t.tStart = s.us)
    (hd : d = max 1 (t.selOnUs.toNat * s.params.ticksPerUs - s.pre)) (hreset : s.noResetFor (d + 1)) :
    (∃ v, runFor (d + 1) s = some v ∧ v.phase ≠ .selOn) ∧
    ∀ m u, 1 ≤ m → m ≤ d → runFor m s = some u → u.phase = .selOn ∧ u.tx = true := by
  rw [← holdUs_of_selOn hphase] at hd
  obtain ⟨⟨u, hrun, hu, hover, hrst⟩, hhold⟩ := hold_lasts hpre hstep ht hstart hd hreset
  obtain ⟨v, hv⟩ := exists_step u
  have haddr := hu.addressing ht
  refine ⟨⟨v, by rw [runFor_add d 1 s u hrun, runFor_succ 0 u v hv, runFor_zero], ?_⟩, ?_⟩
  · rcases edge_of_on_over haddr (hu.phase.trans hphase) hover hrst hv with ⟨-, hnext⟩ | ⟨-, hdone⟩
    · simp [hnext.phase]
    · rw [hdone.phase]
      exact selectDone_phase_ne haddr.command
  · intro m u hpos hm hu
    have hleaves := hhold m u hpos hm hu
    exact ⟨hleaves.phase.trans hphase, hleaves.tx.trans htx⟩

/-- Settles O26: each of the three holds begins at an edge that stores US, and waits for its ticks. -/
theorem holdsLastAsLongAsTheySay : Obligations.HoldsLastAsLongAsTheySay := by
  refine ⟨fun s n i rest d hidle hphase hpre hi hw hd hreset => ?_, fun s d hinv hphase hover hd hreset => ?_,
    fun s d hinv hphase hover hmore hd hreset => ?_⟩
  · obtain ⟨op, hop, he⟩ := exec_of_addressing hidle hi
    have hstep := step_of_writesCommand hw he
    have ht := edgeLeaves_of_idle (beginSelect n s (startCommand op n s)) hphase
    exact off_hold_lasts hpre hstep (ht.addressing ⟨rfl, .inl rfl, hop⟩) ht.phase ht.tx ht.tStart
      (by rw [ht.selOffUs]; exact hd) hreset
  · have hs := addressing_of_inv hinv (.inl hphase)
    obtain ⟨-, -, hpre, -⟩ := hinv
    obtain ⟨t, hstep⟩ := exists_step s
    have ht := edge_of_off_over hs hphase (by rw [State.HoldOver, holdUs_of_selOff hphase]; exact hover)
      (noResetFor_now s d hreset) hstep
    exact on_hold_lasts hpre hstep (ht.addressing ⟨hs.busy, .inr rfl, hs.command⟩) ht.phase ht.tx ht.tStart
      (by rw [ht.selOnUs]; exact hd) hreset
  · have hs := addressing_of_inv hinv (.inr hphase)
    obtain ⟨-, -, hpre, -⟩ := hinv
    obtain ⟨t, hstep⟩ := exists_step s
    rcases edge_of_on_over hs hphase (by rw [State.HoldOver, holdUs_of_selOn hphase]; exact hover)
      (noResetFor_now s d hreset) hstep with ⟨-, ht⟩ | ⟨hlast, -⟩
    · exact off_hold_lasts hpre hstep (ht.addressing ⟨hs.busy, .inl rfl, hs.command⟩) ht.phase ht.tx ht.tStart
        (by rw [ht.selOffUs]; exact hd) hreset
    · omega

/-! ## A SELECT to its end (42_bus_addressor.md R228) -/

/-- `n` edges lead from `s` to `t`, and a command runs before each of them. -/
structure BusyRun (n : Nat) (s t : State) : Prop where
  run : runFor n s = some t
  busy : ∀ m u, m < n → runFor m s = some u → u.busy = true

theorem BusyRun.trans {m n : Nat} {s t u : State} (h : BusyRun m s t) (h' : BusyRun n t u) : BusyRun (m + n) s u := by
  refine ⟨by rw [runFor_add m n s t h.run, h'.run], fun k v hk hv => ?_⟩
  by_cases hkm : k < m
  · exact h.busy k v hkm hv
  · obtain ⟨j, rfl⟩ := Nat.exists_eq_add_of_le (Nat.not_lt.mp hkm)
    rw [runFor_add m j s t h.run] at hv
    exact h'.busy j v (by omega) hv

theorem BusyRun.of_step {s t : State} (hbusy : s.busy = true) (h : step s = .next t) : BusyRun 1 s t := by
  refine ⟨by rw [runFor_succ 0 s t h, runFor_zero], fun m u hm hu => ?_⟩
  obtain rfl : m = 0 := by omega
  cases hu
  exact hbusy

/-- A hold's first edge has passed, with one tick per microsecond. -/
structure State.HoldBegun (s : State) : Prop where
  addressing : s.Addressing
  oneTick : s.params.ticksPerUs = 1
  inRange : s.prescalerInRange
  begun : s.ticksSince s.tStart = 1

theorem holdBegun_of_edge {s t v : State} (hone : s.params.ticksPerUs = 1) (hpre : s.prescalerInRange)
    (hrst : s.hostPins.rst = false) (hstep : step s = .next t) (ht : EdgeLeaves v t) (hv : v.Addressing)
    (hstart : v.tStart = s.us) : t.HoldBegun := by
  obtain ⟨htpre, hticks⟩ := ticksSince_start hrst hpre hstep
  refine ⟨ht.addressing hv, by rw [step_params hstep, hone], htpre, ?_⟩
  rw [State.prescalerInRange, hone] at hpre
  rw [ht.tStart, hstart, hticks]
  omega

/-- The rest of a hold of at least one microsecond, and the edge that ends it. -/
theorem hold_ends {s : State} (hs : s.HoldBegun) (hpos : 1 ≤ s.holdUs.toNat) {r : Nat}
    (hreset : s.noResetFor (s.holdUs.toNat + r)) :
    ∃ u t, BusyRun s.holdUs.toNat s t ∧ EdgeLeaves s u ∧ u.HoldOver ∧ u.params.ticksPerUs = 1 ∧
      u.prescalerInRange ∧ u.hostPins.rst = false ∧ step u = .next t ∧ t.noResetFor r := by
  obtain ⟨k, hk⟩ := Nat.exists_eq_add_of_le' hpos
  rw [hk] at hreset ⊢
  have hrun {n : Nat} (hn : n ≤ k) := hold_run (n := n) hs.addressing hs.inRange
    (noResetFor_of_le hreset (by omega)) (by rw [hs.begun, hs.oneTick]; omega)
  obtain ⟨u, hu, hleaves, hupre, hparams, hticks⟩ := hrun le_rfl
  have hbusy : BusyRun k s u := ⟨hu, fun m v hm hv => by
    obtain ⟨w, hw, hwleaves, -⟩ := hrun hm.le
    cases hv.symm.trans hw
    exact hwleaves.busy.trans hs.addressing.busy⟩
  have hureset : u.noResetFor (r + 1) := noResetFor_run (n := k) (by rwa [Nat.add_assoc, Nat.add_comm 1 r] at hreset) hu
  obtain ⟨t, ht⟩ := exists_step u
  refine ⟨u, t, hbusy.trans (BusyRun.of_step (hleaves.busy.trans hs.addressing.busy) ht), hleaves, ?_,
    by rw [hparams, hs.oneTick], hupre, noResetFor_now u r hureset, ht, noResetFor_step hureset ht⟩
  rw [State.HoldOver, le_elapsed_iff hupre, hticks, hs.begun, hleaves.holdUs, hparams, hs.oneTick]
  omega

/-- A SELECT's off hold has begun; its holds are at least one microsecond each. -/
structure State.PulseBegun (s : State) : Prop where
  hold : s.HoldBegun
  phase : s.phase = .selOff
  command : s.curOp = opSelect
  offPos : 1 ≤ s.selOffUs.toNat
  onPos : 1 ≤ s.selOnUs.toNat

/-- What no pulse of a SELECT changes: the holds and the level. -/
structure SelectKeeps (s t : State) : Prop where
  selOffUs : t.selOffUs = s.selOffUs
  selOnUs : t.selOnUs = s.selOnUs
  levelNum : t.levelNum = s.levelNum
  levelDen : t.levelDen = s.levelDen

theorem SelectKeeps.trans {s t u : State} (h : SelectKeeps s t) (h' : SelectKeeps t u) : SelectKeeps s u :=
  ⟨h'.selOffUs.trans h.selOffUs, h'.selOnUs.trans h.selOnUs, h'.levelNum.trans h.levelNum,
    h'.levelDen.trans h.levelDen⟩

theorem EdgeLeaves.selectKeeps {v t : State} (h : EdgeLeaves v t) : SelectKeeps v t :=
  ⟨h.selOffUs, h.selOnUs, h.levelNum, h.levelDen⟩

/-- The end of a SELECT (41_commands.md R184). -/
structure State.SelectOver (t : State) : Prop where
  busy : t.busy = false
  phase : t.phase = .idle
  done : t.done = true
  tx : t.tx = true
  result : t.result = .none

theorem done_of_step_ends {s t : State} (hbusy : s.busy = true) (hrst : s.hostPins.rst = false)
    (h : step s = .next t) (hend : t.busy = false) : t.done = true := by
  obtain ⟨f, hf⟩ := step_of_busy hbusy hrst
  cases h.symm.trans hf
  exact done_of_advance_ends hbusy hend

theorem selectDone_of_select {s : State} (h : s.curOp = opSelect) :
    selectDone s s = (setResult .none (clearRemain s)).endCommand := by
  rcases selectDone_cases s s with ⟨hread, -⟩ | ⟨-, hdone⟩ | ⟨-, hne, -⟩
  · rw [h] at hread
    exact absurd hread (by decide)
  · exact hdone
  · exact absurd h hne

/-- One pulse: the off hold, the on hold, and then the next pulse or the end. -/
theorem pulse_ends {s : State} (hs : s.PulseBegun) {r : Nat}
    (hreset : s.noResetFor (s.selOffUs.toNat + s.selOnUs.toNat + r)) :
    ∃ t, BusyRun (s.selOffUs.toNat + s.selOnUs.toNat) s t ∧ t.noResetFor r ∧ SelectKeeps s t ∧
      ((1 < s.selRemain.toNat ∧ t.PulseBegun ∧ t.selRemain = s.selRemain - 1) ∨
       (s.selRemain.toNat ≤ 1 ∧ t.SelectOver)) := by
  -- the off hold
  have hoff := holdUs_of_selOff hs.phase
  obtain ⟨u, v, hrun, hu, huover, huone, hupre, hurst, hv, hvreset⟩ := hold_ends hs.hold
    (by rw [hoff]; exact hs.offPos) (r := s.selOnUs.toNat + r) (by rwa [hoff, ← Nat.add_assoc])
  have huaddr := hu.addressing hs.hold.addressing
  have hvon := edge_of_off_over huaddr (hu.phase.trans hs.phase) huover hurst hv
  have hvbegun := holdBegun_of_edge huone hupre hurst hv hvon ⟨huaddr.busy, .inr rfl, huaddr.command⟩ rfl
  have hvphase : v.phase = .selOn := hvon.phase
  -- the on hold
  have hon : v.holdUs = s.selOnUs := (holdUs_of_selOn hvphase).trans (hvon.selOnUs.trans hu.selOnUs)
  obtain ⟨w, t, hrun', hw, hwover, hwone, hwpre, hwrst, ht, htreset⟩ := hold_ends hvbegun
    (by rw [hon]; exact hs.onPos) (r := r) (by rwa [hon])
  have hwaddr := hw.addressing hvbegun.addressing
  have hwop : w.curOp = opSelect := hw.curOp.trans (hvon.curOp.trans (hu.curOp.trans hs.command))
  have hwremain : w.selRemain = s.selRemain := hw.selRemain.trans (hvon.selRemain.trans hu.selRemain)
  have hwkeeps : SelectKeeps s w :=
    (hu.selectKeeps.trans ⟨hvon.selOffUs, hvon.selOnUs, hvon.levelNum, hvon.levelDen⟩).trans hw.selectKeeps
  refine ⟨t, ?_, htreset, ?_⟩
  · rw [hoff] at hrun
    rw [hon] at hrun'
    exact hrun.trans hrun'
  -- the edge after it
  rcases edge_of_on_over hwaddr (hw.phase.trans hvphase) hwover hwrst ht with ⟨hmore, hnext⟩ | ⟨hlast, hdone⟩
  · have hkeeps : SelectKeeps s t :=
      hwkeeps.trans ⟨hnext.selOffUs, hnext.selOnUs, hnext.levelNum, hnext.levelDen⟩
    refine ⟨hkeeps, .inl ⟨hwremain ▸ hmore, ⟨?_, hnext.phase, hnext.curOp.trans hwop, ?_, ?_⟩, ?_⟩⟩
    · exact holdBegun_of_edge hwone hwpre hwrst ht hnext ⟨hwaddr.busy, .inl rfl, hwaddr.command⟩ rfl
    · rw [hkeeps.selOffUs]; exact hs.offPos
    · rw [hkeeps.selOnUs]; exact hs.onPos
    · rw [hnext.selRemain, nextPulse_selRemain, hwremain]
  · rw [selectDone_of_select hwop] at hdone
    have hbusy : t.busy = false := hdone.busy
    exact ⟨hwkeeps.trans ⟨hdone.selOffUs, hdone.selOnUs, hdone.levelNum, hdone.levelDen⟩,
      .inr ⟨hwremain ▸ hlast, hbusy, hdone.phase, done_of_step_ends hwaddr.busy hwrst ht hbusy,
        hdone.tx.trans (hw.tx.trans hvon.tx), hdone.result⟩⟩

/-- `r + 1` pulses end the SELECT. -/
theorem pulses_end {r : Nat} {s : State} (hs : s.PulseBegun) (hremain : s.selRemain.toNat = r + 1)
    (hreset : s.noResetFor ((r + 1) * (s.selOffUs.toNat + s.selOnUs.toNat))) :
    ∃ t, BusyRun ((r + 1) * (s.selOffUs.toNat + s.selOnUs.toNat)) s t ∧ SelectKeeps s t ∧ t.SelectOver := by
  induction r generalizing s with
  | zero =>
    rw [Nat.zero_add, Nat.one_mul] at hreset ⊢
    obtain ⟨t, hrun, -, hkeeps, ⟨hmore, -⟩ | ⟨-, hover⟩⟩ := pulse_ends hs (r := 0) hreset
    · omega
    · exact ⟨t, hrun, hkeeps, hover⟩
  | succ r ih =>
    rw [Nat.succ_mul, Nat.add_comm] at hreset ⊢
    obtain ⟨t, hrun, htreset, hkeeps, ⟨-, ht, htremain⟩ | ⟨hlast, -⟩⟩ := pulse_ends hs hreset
    · rw [← hkeeps.selOffUs, ← hkeeps.selOnUs] at htreset
      obtain ⟨u, hrun', hkeeps', hover⟩ := ih ht (by rw [htremain]; bv_omega) htreset
      rw [hkeeps.selOffUs, hkeeps.selOnUs] at hrun'
      exact ⟨u, hrun.trans hrun', hkeeps.trans hkeeps', hover⟩
    · omega

/-- Settles O27: the start edge, then one pulse after the other. -/
theorem selectEndsAtItsEdge : Obligations.SelectEndsAtItsEdge := by
  intro s n rest len hidle hphase hone hzero hoff hon hw hlen hreset
  have hpre : s.prescalerInRange := by rw [State.prescalerInRange, hone, hzero]; decide
  have hstep := step_of_writesCommand hw (exec_select n hidle)
  have ht := edgeLeaves_of_idle (beginSelect n s (startCommand opSelect n s)) hphase
  generalize advance s (beginSelect n s (startCommand opSelect n s)) = t at hstep ht
  have hbegun : t.PulseBegun :=
    ⟨holdBegun_of_edge hone hpre (noResetFor_now s len hreset) hstep ht ⟨rfl, .inl rfl, .inr rfl⟩ rfl, ht.phase,
      ht.curOp, by rw [ht.selOffUs]; exact hoff, by rw [ht.selOnUs]; exact hon⟩
  have hlen' : len = (n.toNat + 1) * (t.selOffUs.toNat + t.selOnUs.toNat) := by
    rw [ht.selOffUs, ht.selOnUs]
    exact hlen
  obtain ⟨u, hrun, hkeeps, hover⟩ := pulses_end hbegun (by rw [ht.selRemain]; exact pulseCount_toNat n)
    (hlen' ▸ noResetFor_step hreset hstep)
  rw [← hlen'] at hrun
  refine ⟨⟨u, by rw [runFor_succ _ _ _ hstep, hrun.run], hover.busy, hover.phase, hover.done, hover.tx, hover.result,
    hkeeps.levelNum.trans ht.levelNum, hkeeps.levelDen.trans ht.levelDen⟩, fun m v hpos hm hv => ?_⟩
  obtain ⟨k, rfl⟩ := Nat.exists_eq_add_of_le' hpos
  rw [runFor_succ _ _ _ hstep] at hv
  exact hrun.busy k v (by omega) hv

end Sys2Proof.Machine

/-! Every command ends (43_pulse_capture.md R251): a bound on the edges that a running command has left, which every
edge lowers, whatever the sensor and the host do. -/

namespace Sys2Proof.Machine

/-! ## The edges a wait has left -/

/-- The most edges a wait or hold of `n` microseconds lasts. -/
def State.waitEdges (s : State) (n : BitVec 16) : Nat := max 1 (n.toNat * s.params.ticksPerUs)

/-- The most edges a wait of `n` microseconds since `start` has left, the one that ends it included. -/
def State.waitLeft (s : State) (n : BitVec 16) (start : Micros) : Nat :=
  n.toNat * s.params.ticksPerUs - s.ticksSince start + 1

theorem waitLeft_pos (s : State) (n : BitVec 16) (start : Micros) : 1 ≤ s.waitLeft n start := Nat.le_add_left _ _

section Wait

variable {s t : State} (hrst : s.hostPins.rst = false) (hpre : s.prescalerInRange) (hstep : step s = .next t)
include hrst hpre hstep

theorem waitLeft_of_start (n : BitVec 16) : t.waitLeft n s.us ≤ s.waitEdges n := by
  obtain ⟨-, hticks⟩ := ticksSince_start hrst hpre hstep
  rw [State.waitLeft, hticks, step_params hstep, State.waitEdges]
  omega

theorem waitLeft_of_wait {n : BitVec 16} {start : Micros} (hearly : (elapsed s.us start).toNat < n.toNat) :
    t.waitLeft n start + 1 ≤ s.waitLeft n start := by
  have hlate : s.ticksSince start < n.toNat * s.params.ticksPerUs :=
    Nat.not_le.mp (mt (le_elapsed_iff hpre start n.toNat).mpr (Nat.not_le.mpr hearly))
  have hbound := holdTicks_lt n s.params
  obtain ⟨-, hticks⟩ := ticksSince_step hrst hpre hstep start
  rw [Nat.mod_eq_of_lt (by omega)] at hticks
  rw [State.waitLeft, State.waitLeft, hticks, step_params hstep]
  omega

end Wait

/-! ## The edges a command has left -/

/-- The most edges of one pulse. -/
def State.pulseEdges (s : State) : Nat := s.waitEdges s.selOffUs + s.waitEdges s.selOnUs

/-- The most edges of `k` capture waits and the evaluation after them. -/
def State.captureEdges (s : State) (k : Nat) : Nat := k * s.waitEdges s.timeoutUs + 1

/-- A bound on the edges the running command has left, with TO_EN = 1: what is left of the phase's hold or wait, the
pulses and the capture waits after it (two for each duration), and the evaluation. -/
def State.edgesLeft (s : State) : Nat :=
  match s.phase with
  | .idle => 0
  | .selOff => s.waitLeft s.selOffUs s.tStart + s.waitEdges s.selOnUs +
      (s.selRemain.toNat - 1) * s.pulseEdges + s.captureEdges 192
  | .selOn => s.waitLeft s.selOnUs s.tStart + (s.selRemain.toNat - 1) * s.pulseEdges + s.captureEdges 192
  | .capHigh => s.waitLeft s.timeoutUs s.tStart + s.captureEdges (191 - 2 * s.durCount.toNat)
  | .capLow => s.waitLeft s.timeoutUs s.tFall + s.captureEdges (190 - 2 * s.durCount.toNat)
  | .eval => 1

theorem edgesLeft_of_idle {s : State} (h : s.phase = .idle) : s.edgesLeft = 0 := by
  rw [State.edgesLeft, h]

theorem edgesLeft_of_eval {s : State} (h : s.phase = .eval) : s.edgesLeft = 1 := by
  rw [State.edgesLeft, h]

theorem edgesLeft_of_selOff {s : State} (h : s.phase = .selOff) : s.edgesLeft =
    s.waitLeft s.selOffUs s.tStart + s.waitEdges s.selOnUs + (s.selRemain.toNat - 1) * s.pulseEdges +
      s.captureEdges 192 := by
  rw [State.edgesLeft, h]

theorem edgesLeft_of_selOn {s : State} (h : s.phase = .selOn) : s.edgesLeft =
    s.waitLeft s.selOnUs s.tStart + (s.selRemain.toNat - 1) * s.pulseEdges + s.captureEdges 192 := by
  rw [State.edgesLeft, h]

theorem edgesLeft_of_capHigh {s : State} (h : s.phase = .capHigh) : s.edgesLeft =
    s.waitLeft s.timeoutUs s.tStart + s.captureEdges (191 - 2 * s.durCount.toNat) := by
  rw [State.edgesLeft, h]

theorem edgesLeft_of_capLow {s : State} (h : s.phase = .capLow) : s.edgesLeft =
    s.waitLeft s.timeoutUs s.tFall + s.captureEdges (190 - 2 * s.durCount.toNat) := by
  rw [State.edgesLeft, h]

theorem captureEdges_succ (s : State) (k : Nat) :
    s.captureEdges (k + 1) = s.captureEdges k + s.waitEdges s.timeoutUs := by
  rw [State.captureEdges, State.captureEdges, Nat.succ_mul]
  omega

theorem captureEdges_pos (s : State) (k : Nat) : 1 ≤ s.captureEdges k := Nat.le_add_left _ _

theorem EdgeLeaves.waitEdges {v t : State} (h : EdgeLeaves v t) (n : BitVec 16) : t.waitEdges n = v.waitEdges n := by
  rw [State.waitEdges, State.waitEdges, h.params]

theorem EdgeLeaves.captureEdges {v t : State} (h : EdgeLeaves v t) (k : Nat) : t.captureEdges k = v.captureEdges k := by
  rw [State.captureEdges, State.captureEdges, h.waitEdges, h.timeoutUs]

theorem EdgeLeaves.pulseEdges {v t : State} (h : EdgeLeaves v t) : t.pulseEdges = v.pulseEdges := by
  rw [State.pulseEdges, State.pulseEdges, h.waitEdges, h.waitEdges, h.selOffUs, h.selOnUs]

theorem timedOut_false_iff {s : State} (hon : s.toEn = true) (start : Micros) :
    timedOut s start = false ↔ (elapsed s.us start).toNat < s.timeoutUs.toNat := by
  rw [Bool.eq_false_iff, ne_eq, timedOut_iff]
  simp [hon]

/-- The evaluation takes one edge. -/
theorem edgesLeft_of_eval_step {s t : State} (hrst : s.hostPins.rst = false) (hbusy : s.busy = true)
    (hstep : step s = .next t) (hphase : s.phase = .eval) : t.edgesLeft < s.edgesLeft := by
  have ht := edgeLeaves_of_step hbusy hrst hstep
  rw [phaseStep_eval _ _ hphase] at ht
  rw [edgesLeft_of_eval hphase, edgesLeft_of_idle (ht.phase.trans (evalStep_ends s s).1)]
  exact Nat.zero_lt_one

section Edge

variable {s t : State} (hrst : s.hostPins.rst = false) (hpre : s.prescalerInRange) (hbusy : s.busy = true)
  (hstep : step s = .next t)
include hrst hpre hbusy hstep

/-- An edge of an off hold waits or begins the on hold. -/
theorem edgesLeft_of_selOff_step (hphase : s.phase = .selOff) : t.edgesLeft < s.edgesLeft := by
  have ht := edgeLeaves_of_step hbusy hrst hstep
  rw [phaseStep_selOff _ _ hphase] at ht
  rw [edgesLeft_of_selOff hphase]
  rcases selOffStep_cases s s with ⟨-, h⟩ | ⟨hearly, h⟩ <;> rw [h] at ht
  · have hleft : t.edgesLeft =
        t.waitLeft s.selOnUs s.us + (s.selRemain.toNat - 1) * s.pulseEdges + s.captureEdges 192 := by
      rw [edgesLeft_of_selOn ht.phase, ht.selOnUs, ht.tStart, ht.selRemain, ht.pulseEdges, ht.captureEdges]
      rfl
    have hstart := waitLeft_of_start hrst hpre hstep s.selOnUs
    have hlast := waitLeft_pos s s.selOffUs s.tStart
    rw [hleft]
    omega
  · have hwait := waitLeft_of_wait hrst hpre hstep hearly
    rw [edgesLeft_of_selOff (ht.phase.trans hphase), ht.selOffUs, ht.tStart, ht.waitEdges, ht.selOnUs, ht.selRemain,
      ht.pulseEdges, ht.captureEdges]
    omega

/-- An edge of an on hold waits, begins the next pulse, begins a READ's capture or ends a SELECT. -/
theorem edgesLeft_of_selOn_step (hphase : s.phase = .selOn) (hop : s.curOp = opRead ∨ s.curOp = opSelect) :
    t.edgesLeft < s.edgesLeft := by
  have ht := edgeLeaves_of_step hbusy hrst hstep
  rw [phaseStep_selOn _ _ hphase] at ht
  rw [edgesLeft_of_selOn hphase]
  have hpos := captureEdges_pos s 192
  rcases selOnStep_cases s s with ⟨-, hmore, h⟩ | ⟨-, -, h⟩ | ⟨hearly, h⟩ <;> rw [h] at ht
  · have hleft : t.edgesLeft = t.waitLeft s.selOffUs s.us + s.waitEdges s.selOnUs +
        ((s.selRemain - 1).toNat - 1) * s.pulseEdges + s.captureEdges 192 := by
      rw [edgesLeft_of_selOff ht.phase, ht.selOffUs, ht.tStart, ht.waitEdges, ht.selOnUs, ht.selRemain, ht.pulseEdges,
        ht.captureEdges]
      rfl
    have hstart := waitLeft_of_start hrst hpre hstep s.selOffUs
    have hpulse : (s.selRemain.toNat - 1) * s.pulseEdges =
        ((s.selRemain - 1).toNat - 1) * s.pulseEdges + s.pulseEdges := by
      rw [← Nat.succ_mul]
      congr 1
      bv_omega
    have hlast := waitLeft_pos s s.selOnUs s.tStart
    rw [hleft, hpulse, State.pulseEdges]
    omega
  · rcases selectDone_cases s s with ⟨-, hd⟩ | ⟨-, hd⟩ | ⟨hread, hselect, -⟩
    · rw [hd] at ht
      have hleft : t.edgesLeft = t.waitLeft s.timeoutUs s.us + s.captureEdges 191 := by
        rw [edgesLeft_of_capHigh ht.phase, ht.timeoutUs, ht.tStart, ht.durCount, ht.captureEdges]
        rfl
      have hstart := waitLeft_of_start hrst hpre hstep s.timeoutUs
      have hlast := waitLeft_pos s s.selOnUs s.tStart
      rw [hleft, captureEdges_succ s 191]
      omega
    · rw [hd] at ht
      rw [edgesLeft_of_idle ht.phase]
      omega
    · exact absurd hop (not_or.mpr ⟨hread, hselect⟩)
  · have hwait := waitLeft_of_wait hrst hpre hstep hearly
    rw [edgesLeft_of_selOn (ht.phase.trans hphase), ht.selOnUs, ht.tStart, ht.selRemain, ht.pulseEdges, ht.captureEdges]
    omega

/-- An edge of the wait for a low level waits, begins a pulse or gives up. -/
theorem edgesLeft_of_capHigh_step (hphase : s.phase = .capHigh) (hon : s.toEn = true)
    (hcount : s.durCount.toNat ≤ 95) : t.edgesLeft < s.edgesLeft := by
  have ht := edgeLeaves_of_step hbusy hrst hstep
  rw [phaseStep_capHigh _ _ hphase] at ht
  rw [edgesLeft_of_capHigh hphase]
  rcases capHighStep_cases s s with ⟨-, h⟩ | ⟨-, -, h⟩ | ⟨-, hearly, h⟩ <;> rw [h] at ht
  · have hleft : t.edgesLeft = t.waitLeft s.timeoutUs s.us + s.captureEdges (190 - 2 * s.durCount.toNat) := by
      rw [edgesLeft_of_capLow ht.phase, ht.timeoutUs, ht.tFall, ht.durCount, ht.captureEdges]
      rfl
    have hstart := waitLeft_of_start hrst hpre hstep s.timeoutUs
    have hlast := waitLeft_pos s s.timeoutUs s.tStart
    rw [hleft, show 191 - 2 * s.durCount.toNat = 190 - 2 * s.durCount.toNat + 1 by omega, captureEdges_succ]
    omega
  · have hpos := captureEdges_pos s (191 - 2 * s.durCount.toNat)
    rw [edgesLeft_of_eval ht.phase, State.waitLeft]
    omega
  · rw [timedOut_false_iff hon] at hearly
    have hwait := waitLeft_of_wait hrst hpre hstep hearly
    rw [edgesLeft_of_capHigh (ht.phase.trans hphase), ht.timeoutUs, ht.tStart, ht.durCount, ht.captureEdges]
    omega

/-- An edge of the wait for a high level waits, stores a duration or gives up. -/
theorem edgesLeft_of_capLow_step (hphase : s.phase = .capLow) (hon : s.toEn = true)
    (hcount : s.durCount.toNat ≤ 95) : t.edgesLeft < s.edgesLeft := by
  have ht := edgeLeaves_of_step hbusy hrst hstep
  rw [phaseStep_capLow _ _ hphase] at ht
  rw [edgesLeft_of_capLow hphase]
  have hpos := captureEdges_pos s (190 - 2 * s.durCount.toNat)
  rcases capLowStep_cases s s with ⟨-, -, h⟩ | ⟨-, hmore, h⟩ | ⟨-, -, h⟩ | ⟨-, hearly, h⟩ <;> rw [h] at ht
  · rw [edgesLeft_of_eval ht.phase, State.waitLeft]
    omega
  · have hnext : (storeDuration s s).durCount.toNat = s.durCount.toNat + 1 := storeDuration_durCount_toNat hcount
    have hleft : t.edgesLeft =
        t.waitLeft s.timeoutUs s.us + s.captureEdges (191 - 2 * (s.durCount.toNat + 1)) := by
      rw [← hnext, edgesLeft_of_capHigh ht.phase, ht.timeoutUs, ht.tStart, ht.durCount, ht.captureEdges]
      rfl
    have hstart := waitLeft_of_start hrst hpre hstep s.timeoutUs
    have hlast := waitLeft_pos s s.timeoutUs s.tFall
    rw [hleft, show 190 - 2 * s.durCount.toNat = 191 - 2 * (s.durCount.toNat + 1) + 1 by omega, captureEdges_succ]
    omega
  · rw [edgesLeft_of_eval ht.phase, State.waitLeft]
    omega
  · rw [timedOut_false_iff hon] at hearly
    have hwait := waitLeft_of_wait hrst hpre hstep hearly
    rw [edgesLeft_of_capLow (ht.phase.trans hphase), ht.timeoutUs, ht.tFall, ht.durCount, ht.captureEdges]
    omega

end Edge

/-! ## The end -/

theorem edgesLeft_pos {s : State} (hphase : s.phase ≠ .idle) : 0 < s.edgesLeft := by
  have hpos := captureEdges_pos s
  cases h : s.phase with
  | idle => exact absurd h hphase
  | selOff => rw [edgesLeft_of_selOff h]; exact Nat.add_pos_right _ (hpos _)
  | selOn => rw [edgesLeft_of_selOn h]; exact Nat.add_pos_right _ (hpos _)
  | capHigh => rw [edgesLeft_of_capHigh h]; exact Nat.add_pos_right _ (hpos _)
  | capLow => rw [edgesLeft_of_capLow h]; exact Nat.add_pos_right _ (hpos _)
  | eval => rw [edgesLeft_of_eval h]; exact Nat.zero_lt_one

/-- Every edge of a running command lowers the bound, a reset edge to 0. -/
theorem edgesLeft_step {s t : State} (hinv : s.inv) (hon : s.toEn = true) (hbusy : s.busy = true)
    (hstep : step s = .next t) : t.edgesLeft < s.edgesLeft := by
  obtain ⟨hmatch, -, hpre, -, -, hsel, hcap, -⟩ := hinv
  cases hrst : s.hostPins.rst with
  | true =>
    cases hstep.symm.trans (step_of_reset hrst)
    rw [edgesLeft_of_idle rfl]
    exact edgesLeft_pos (hmatch.mp hbusy)
  | false =>
    cases hphase : s.phase with
    | idle => exact absurd hphase (hmatch.mp hbusy)
    | selOff => exact edgesLeft_of_selOff_step hrst hpre hbusy hstep hphase
    | selOn => exact edgesLeft_of_selOn_step hrst hpre hbusy hstep hphase (hsel (.inr hphase)).2
    | capHigh => exact edgesLeft_of_capHigh_step hrst hpre hbusy hstep hphase hon (hcap (.inl hphase)).1
    | capLow => exact edgesLeft_of_capLow_step hrst hpre hbusy hstep hphase hon (hcap (.inr hphase)).1
    | eval => exact edgesLeft_of_eval_step hrst hbusy hstep hphase

/-- TO_EN stays 1 while a command runs, and reset sets it. -/
theorem toEn_step {s t : State} (hbusy : s.busy = true) (hon : s.toEn = true) (hstep : step s = .next t) :
    t.toEn = true := by
  cases hrst : s.hostPins.rst with
  | true => cases hstep.symm.trans (step_of_reset hrst); rfl
  | false => rw [(edgeLeaves_of_step hbusy hrst hstep).toEn, phaseStep_toEn, hon]

/-- A command ends within the edges it has left, whatever the sensor and the host do. -/
theorem ends_within {k : Nat} {s : State} (hinv : s.inv) (hon : s.toEn = true) (hk : s.edgesLeft ≤ k) :
    ∃ n t, n ≤ k ∧ runFor n s = some t ∧ t.busy = false := by
  induction k generalizing s with
  | zero =>
    refine ⟨0, s, le_rfl, rfl, busy_false_of_idle hinv.1 ?_⟩
    by_contra hrun
    exact absurd (edgesLeft_pos hrun) (by omega)
  | succ k ih =>
    cases hbusy : s.busy with
    | false => exact ⟨0, s, Nat.zero_le _, rfl, hbusy⟩
    | true =>
      obtain ⟨t, hstep⟩ := exists_step s
      have hless := edgesLeft_step hinv hon hbusy hstep
      obtain ⟨n, u, hn, hrun, hend⟩ := ih (step_inv hinv hstep) (toEn_step hbusy hon hstep) (by omega)
      exact ⟨n + 1, u, by omega, by rw [runFor_succ _ _ _ hstep, hrun], hend⟩

/-- Settles O29: the bound falls at every edge. -/
theorem everyCommandEndsWithTheTimeout : Obligations.EveryCommandEndsWithTheTimeout := by
  intro s hinv hon
  obtain ⟨n, t, -, hrun, hend⟩ := ends_within hinv hon le_rfl
  exact ⟨n, t, hrun, hend⟩

/-- Settles O30: after its start edge a CAPTURE has 192 waits and the evaluation left. -/
theorem captureEndsWithinItsBound : Obligations.CaptureEndsWithinItsBound := by
  intro s n rest hinv hidle hon hw
  have hstep := step_of_writesCommand hw (exec_capture n hidle)
  have hrst : s.hostPins.rst = false := by rw [State.hostPins, hw]; rfl
  have ht := edgeLeaves_of_idle (beginCapture s (startCommand opCapture n s)) (inv_phase_idle hinv hidle)
  generalize advance s (beginCapture s (startCommand opCapture n s)) = t at hstep ht
  have hleft : t.edgesLeft = t.waitLeft s.timeoutUs s.us + s.captureEdges 191 := by
    rw [edgesLeft_of_capHigh ht.phase, ht.timeoutUs, ht.tStart, ht.durCount, ht.captureEdges]
    rfl
  obtain ⟨-, -, hpre, -⟩ := id hinv
  have hstart := waitLeft_of_start hrst hpre hstep s.timeoutUs
  obtain ⟨m, u, hm, hrun, hend⟩ := ends_within (k := s.captureEdges 192) (step_inv hinv hstep) (ht.toEn.trans hon)
    (by rw [hleft, captureEdges_succ s 191]; omega)
  exact ⟨m, u, hm, by rw [runFor_succ _ _ _ hstep, hrun], hend⟩

end Sys2Proof.Machine
